-- ==== Sys2Proof/Word.lean ====
section
/-! DEFINITION. The bit-vector types of the block and the zero byte string (spec/00_scope.md R6, R8). -/

namespace Sys2Proof

/-- A byte of a block, a key or a register. -/
abbrev Byte := BitVec 8

/-- A data register: W = 64 bits (R6). -/
abbrev Word := BitVec 64

/-- A command word: the 32 bits written to CMD (R24, R80). -/
abbrev CmdWord := BitVec 32

/-- `zeros(n)`: n zero bytes (R8). -/
def zeros (n : Nat) : List Byte := List.replicate n 0

end Sys2Proof
end

