-- ==== Sys2Proof/Config.lean ====
section
/-! DEFINITION. What an instance of the block fixes (spec/00_scope.md R6) and the free values of the model.
Everything the spec marks OPEN is an opaque constant: no value of it can be proved. -/

namespace Sys2Proof

/-- The external primitives of an instance with their sizes (R6; 92_eei_decisions.md D4). The two functions give
one byte of their result each; the whole results, of the right length, are `Primitives.blockEncrypt` and
`Primitives.mac`, so every total function of R6's types is one of these. -/
structure Primitives where
  /-- K, the block-cipher key size in bytes. -/
  keyBytes : Nat
  /-- BB, the block size in bytes. -/
  blockBytes : Nat
  /-- B, the MAC digest size in bytes. -/
  digestBytes : Nat
  /-- Byte number `i` of BlockEncrypt(key, block). -/
  encryptByte : List Byte → List Byte → Nat → Byte
  /-- Byte number `i` of MAC(key, message). -/
  macByte : List Byte → List Byte → Nat → Byte

/-- The build-time conditions of R6: 1 <= K <= 255, 8 <= BB <= 255, K <= B <= 255. -/
structure Primitives.Legal (p : Primitives) : Prop where
  key : 1 ≤ p.keyBytes ∧ p.keyBytes ≤ 255
  block : 8 ≤ p.blockBytes ∧ p.blockBytes ≤ 255
  digest : p.keyBytes ≤ p.digestBytes ∧ p.digestBytes ≤ 255

namespace Config

/-- MAX_DOMAIN_BITS (R6). -/
def maxDomainBits : Nat := 63

/-- TARGET_BITS (R6, R102): fixed at 1. -/
def targetBits : Nat := 1

/-- ROUNDS_PER_BIT (R6). -/
def roundsPerBit : Nat := 4

/-- RAW_KEY_MAX (R6). -/
def rawKeyMax : Nat := 64

/-- The size of the register window in bytes (R20). -/
def windowBytes : Nat := 0x200

/-- OPEN: selects K (log 5). -/
opaque keySizeChoice : Nat

/-- OPEN: selects BB (log 5). -/
opaque blockSizeChoice : Nat

/-- OPEN: selects B (log 5). -/
opaque digestSizeChoice : Nat

/-- K: any value of 1 .. 255 (R6). -/
def keyBytes : Nat := 1 + keySizeChoice % 255

/-- BB: any value of 8 .. 255 (R6). -/
def blockBytes : Nat := 8 + blockSizeChoice % 248

/-- B: any value of K .. 255 (R6). -/
def digestBytes : Nat := keyBytes + digestSizeChoice % (256 - keyBytes)

/-- OPEN: the external block cipher, byte by byte (R6; log 5). -/
opaque encryptByte : List Byte → List Byte → Nat → Byte

/-- OPEN: the external MAC, byte by byte (R6; log 5). -/
opaque macByte : List Byte → List Byte → Nat → Byte

/-- The primitives of this instance. -/
def hardware : Primitives where
  keyBytes := keyBytes
  blockBytes := blockBytes
  digestBytes := digestBytes
  encryptByte := encryptByte
  macByte := macByte

/-- FREE VALUE: the supply of the draws `prim_ok` (R7, R113; 93_implementation_defined.md I4; log 4). -/
opaque primOk : Nat → Bool

/-- OPEN: BASE in units of 512 bytes (R6, R20; log 11). -/
opaque baseIndex : Nat

/-- BASE: the base address of the window, aligned to 512 bytes (R6). -/
def base : Nat := windowBytes * baseIndex

end Config

end Sys2Proof
end

