-- ==== Sys2Proof/Machine/State.lean ====
section
/-! DEFINITION. The architectural state of the block (spec/10_state.md R20 to R50), the faults and refusals of the
model, and the state right after reset (R50). -/

namespace Sys2Proof.Machine

/-- The error codes of STATUS.ERR_CODE (60_exceptions.md R200). The codes 0x07 to 0xFF are never produced. -/
inductive ErrorCode where
  /-- 0x00 NONE. -/
  | noError
  /-- 0x01 DOMAIN_VALUE (R201). -/
  | domainValue
  /-- 0x02 DOMAIN_SIZE (R202). -/
  | domainSize
  /-- 0x03 PRIMITIVE (R203). -/
  | primitive
  /-- 0x04 NOT_READY (R204). -/
  | notReady
  /-- 0x05 ILLEGAL_CMD (R205). -/
  | illegalCmd
  /-- 0x06 KEY_LEN (R206). -/
  | keyLen
  deriving DecidableEq, Repr

/-- The fields of STATUS (R25). Its reserved bits read 0 and are no state. -/
structure Status where
  ready : Bool
  busy : Bool
  done : Bool
  err : Bool
  busywr : Bool
  errCode : ErrorCode
  deriving DecidableEq, Repr

/-- The engine scratch of R47. It lives inside a command only; between commands it is zero (42_lifecycle.md R184).
A command is one step of the model, so this is its value between steps (log 9). -/
structure Scratch where
  value : Word
  round : Nat
  passes : Word
  roundBlock : List Byte
  roundCipher : List Byte
  sourceBlock : List Byte
  masked : List Byte
  targetBlock : List Byte
  sourceDigest : List Byte
  roundDigest : List Byte
  rawKey : List Byte
  deriving DecidableEq, Repr

/-- All of the scratch cleared to zeros (R184). -/
def Scratch.cleared : Scratch where
  value := 0
  round := 0
  passes := 0
  roundBlock := zeros Config.blockBytes
  roundCipher := zeros Config.blockBytes
  sourceBlock := zeros Config.blockBytes
  masked := zeros Config.blockBytes
  targetBlock := zeros Config.blockBytes
  sourceDigest := zeros Config.digestBytes
  roundDigest := zeros Config.digestBytes
  rawKey := zeros Config.rawKeyMax

/-- A host bus access at a window offset (00_scope.md R9; 20_memory.md R60 to R62), legal or not. A write of 4 bytes
sends the low 32 bits of `data`. -/
inductive Access where
  | read (offset size : Nat)
  | write (offset size : Nat) (data : Word)
  deriving DecidableEq, Repr

/-- Who moves next, and what it does (R7, R71, R219): the model's own, the input of a run (log 2). -/
inductive Turn where
  /-- The host makes one access. -/
  | host (a : Access)
  /-- The reset input is asserted (70_reset_and_hazards.md R240). -/
  | reset
  /-- The engine completes the pending command, if there is one (R211). -/
  | engine
  deriving DecidableEq, Repr

/-- What the block answers to a host access (R62). -/
inductive BusReply where
  /-- The data of a read: 64 bits, or 32 bits with zeros above them. -/
  | readData (data : Word)
  /-- A write was taken (or ignored, or dropped: the bus does not tell). -/
  | writeDone
  /-- A bus error response. -/
  | busError
  deriving DecidableEq, Repr

/-- The state of the block. -/
structure State where
  /-- STATUS (R25). -/
  status : Status
  /-- CTRL.IE (R26). -/
  ctrlIE : Bool
  /-- DOMAIN_SIZE_IN (R29). -/
  domainSizeIn : Word
  /-- KEY_LEN bits 7:0 (R30). -/
  keyLen : BitVec 8
  /-- VALUE_IN (R31). -/
  valueIn : Word
  /-- F_SOURCE (R32). -/
  fSource : Word
  /-- F_ROUND (R32). -/
  fRound : Word
  /-- KEY0 to KEY7, the buffer KEYBUF (R33). -/
  keybuf : Vector Word 8
  /-- VALUE_OUT (R34). -/
  valueOut : Word
  /-- F_BIT bit 0 (R35). -/
  fBit : Bool
  /-- PASS_COUNT (R36). -/
  passCount : Word
  /-- CFG_DOMAIN_SIZE (R37). -/
  cfgDomainSize : Word
  /-- CFG_SOURCE_BITS, signed (R38). -/
  cfgSourceBits : Word
  /-- CFG_TARGET_BITS (R39). -/
  cfgTargetBits : Word
  /-- CFG_DOMAIN_BITS (R40). -/
  cfgDomainBits : Word
  /-- CFG_ROUNDS (R41). -/
  cfgRounds : Word
  /-- SKEY, the source_key (R44). -/
  skey : List Byte
  /-- RKEY, the round_key (R44). -/
  rkey : List Byte
  /-- Slot S is set; its key is SKEY (R45). -/
  slotS : Bool
  /-- Slot R is set; its key is RKEY (R45). -/
  slotR : Bool
  /-- PENDING (R46). -/
  pending : Option CmdWord
  /-- Engine scratch (R47). -/
  scratch : Scratch
  /-- The model's own: the turns to come (log 2). -/
  schedule : List Turn
  /-- The model's own: the reply to the last host access (log 3). -/
  busReply : Option BusReply
  /-- The model's own: the draw `prim_ok` the next CONFIG that reaches it takes (R7, R113; log 4). -/
  primOk : Bool
  /-- The model's own: how many draws have been supplied so far (log 4). -/
  drawCount : Nat
  deriving DecidableEq, Repr

/-- What stops the machine. -/
inductive Fault where
  /-- Raised by a host access that is not legal (R61, R62): a bus error is a host-side fault, and the block's state
  is unchanged. Safe: the hardware goes on, the model stops (log 14). -/
  | busError (offset size : Nat)
  /-- Raised by ENCRYPT and DECRYPT when no pass within the bound of 41_feistel.md R148 comes back to the domain.
  Only a state whose CFG_* registers are not those of a CONFIG can raise it, and no run reaches one. Safe (log 6). -/
  | cycleWalkDoesNotEnd
  deriving DecidableEq, Repr

/-- What the model gives no meaning to. -/
inductive Refusal where
  /-- An instruction whose meaning is not written: raised in Dispatch's arms only, and by none of them now. Safe. -/
  | notModelled (mnemonic : String)
  deriving DecidableEq, Repr

/-- STATUS after reset: 0x0 (R50). -/
def Status.reset : Status where
  ready := false
  busy := false
  done := false
  err := false
  busywr := false
  errCode := .noError

/-- The state right after reset (R50, R240). The last four fields are the model's own; their values here are design
choices (log 2, 3, 4) that no statement rests on. -/
def State.reset : State where
  status := Status.reset
  ctrlIE := false
  domainSizeIn := 0
  keyLen := 0
  valueIn := 0
  fSource := 0
  fRound := 0
  keybuf := Vector.replicate 8 0
  valueOut := 0
  fBit := false
  passCount := 0
  cfgDomainSize := 0
  cfgSourceBits := 0
  cfgTargetBits := 0
  cfgDomainBits := 0
  cfgRounds := 0
  skey := zeros Config.keyBytes
  rkey := zeros Config.keyBytes
  slotS := false
  slotR := false
  pending := none
  scratch := Scratch.cleared
  schedule := []
  busReply := none
  primOk := Config.primOk 0
  drawCount := 1

end Sys2Proof.Machine
end

