-- ==== Sys2Proof/Machine/Flags.lean ====
section
/-! DEFINITION. The status word, its write-1-to-clear bits, the control word and the interrupt output
(spec/10_state.md R25, R26, R49; spec/60_exceptions.md R200, R210 to R212, R217). -/

namespace Sys2Proof.Machine

/-- The 8-bit code of an error (R200). -/
def ErrorCode.byte (c : ErrorCode) : Byte :=
  match c with
  | .noError => 0x00
  | .domainValue => 0x01
  | .domainSize => 0x02
  | .primitive => 0x03
  | .notReady => 0x04
  | .illegalCmd => 0x05
  | .keyLen => 0x06

/-- STATUS as it reads (R25): bit 0 READY, 1 BUSY, 2 DONE, 3 ERR, 4 BUSYWR, 15:8 ERR_CODE, the rest 0. -/
def Status.word (st : Status) : Word :=
  (0 : BitVec 48) ++ st.errCode.byte ++ (0 : BitVec 3) ++ BitVec.ofBool st.busywr ++ BitVec.ofBool st.err ++
    BitVec.ofBool st.done ++ BitVec.ofBool st.busy ++ BitVec.ofBool st.ready

/-- The STATUS changes of an acceptance (R210). -/
def Status.accepted (st : Status) : Status :=
  { st with busy := true, done := false, err := false, errCode := .noError }

/-- The STATUS changes of a successful completion (R211). -/
def Status.completedOk (st : Status) : Status :=
  { st with busy := false, done := true, err := false, errCode := .noError }

/-- The STATUS changes of an error completion (R212). -/
def Status.completedErr (st : Status) (code : ErrorCode) : Status :=
  { st with busy := false, done := true, err := true, errCode := code }

/-- A host write to STATUS (R25, R67): a written 1 clears DONE (bit 2) or BUSYWR (bit 4); nothing else changes.
`written` has 0 in every bit the access does not reach. -/
def Status.clearedBy (st : Status) (written : Word) : Status :=
  { st with
    done := st.done && !written.getLsbD 2
    busywr := st.busywr && !written.getLsbD 4 }

/-- CTRL as it reads (R26): bit 0 IE, the rest 0. -/
def ctrlWord (ie : Bool) : Word := (0 : BitVec 63) ++ BitVec.ofBool ie

/-- The interrupt output (R49, R217): `irq` = CTRL.IE & STATUS.DONE, a level. -/
def State.irq (s : State) : Bool := s.ctrlIE && s.status.done

end Sys2Proof.Machine
end

