-- ==== Sys2Proof/Machine/Operands.lean ====
section
/-! DEFINITION. Operand forms: the byte lanes of a bus access, the raw key in KEYBUF, block encoding, byte-wise XOR
and the primitives' whole results (spec/20_memory.md R63, R64, R68; spec/40_round_function.md R106, R108, R109). -/

namespace Sys2Proof.Machine

/-- The register bits an access of `size` bytes at `offset` reaches (R63): all 64, or bits 63:32, or bits 31:0. -/
def laneMask (offset size : Nat) : Word :=
  if size = 8 then 0xFFFFFFFFFFFFFFFF
  else if offset % 8 = 4 then 0xFFFFFFFF00000000
  else 0x00000000FFFFFFFF

/-- The written data placed on the register bits it reaches (R63), with 0 in every other bit. -/
def laneData (offset size : Nat) (data : Word) : Word :=
  (if size = 8 then data else if offset % 8 = 4 then data <<< 32 else data) &&& laneMask offset size

/-- R63: a write changes only the bits it reaches. -/
def mergeLanes (offset size : Nat) (old data : Word) : Word :=
  (old &&& ~~~(laneMask offset size)) ||| laneData offset size data

/-- What a read of `size` bytes at `offset` returns of the register value (R63, R64). -/
def readLanes (offset size : Nat) (value : Word) : Word :=
  if size = 8 then value
  else if offset % 8 = 4 then value >>> 32
  else value &&& 0x00000000FFFFFFFF

/-- Byte `i` of a 64-bit register: bits [8i+7 : 8i] (R64). -/
def byteOfWord (w : Word) (i : Nat) : Byte := w.extractLsb' (8 * i) 8

/-- `le64` of up to eight bytes, padded with zero bytes (R64, R87). -/
def wordOfLeBytes (bs : List Byte) : Word := BitVec.ofNat 64 (bs.foldr (fun b acc => b.toNat + 256 * acc) 0)

/-- Byte `i` of KEYBUF, the byte at window offset 0x100 + i (R33, R68). -/
def keybufByte (keybuf : Vector Word 8) (i : Nat) : Byte := byteOfWord (keybuf.toList.getD (i / 8) 0) (i % 8)

/-- `KEYBUF[0 .. min(L, 64) - 1]`, the raw key (R113); empty when L = 0. -/
def State.rawKey (s : State) : List Byte :=
  (List.range (min s.keyLen.toNat Config.rawKeyMax)).map (keybufByte s.keybuf)

/-- `encode_le(x, BB)` (R108): byte i is x[8i+7:8i] for i <= 7, and 0x00 above. -/
def encodeLe (blockBytes x : Nat) : List Byte :=
  (List.range blockBytes).map fun i => if i ≤ 7 then BitVec.ofNat 8 (x >>> (8 * i)) else 0

/-- `xor_blocks(a, b)` (R109): byte by byte. -/
def xorBlocks (a b : List Byte) : List Byte := List.zipWith (fun x y => x ^^^ y) a b

end Sys2Proof.Machine

namespace Sys2Proof

/-- BlockEncrypt(key, blk), BB bytes (R6, R224). -/
def Primitives.blockEncrypt (p : Primitives) (key blk : List Byte) : List Byte :=
  (List.range p.blockBytes).map (p.encryptByte key blk)

/-- MAC(key, msg), B bytes (R6, R223). -/
def Primitives.mac (p : Primitives) (key msg : List Byte) : List Byte :=
  (List.range p.digestBytes).map (p.macByte key msg)

end Sys2Proof
end

