-- ==== Sys2Proof/Machine/Ops.lean ====
section
/-! DEFINITION. The named operations over the registers: the register map, reads and writes of whole registers,
acceptance, the two completions ("trap entry" among them), the clearings and the reset
(spec/10_state.md R21 to R43; spec/60_exceptions.md R210 to R212; spec/42_lifecycle.md R183, R184). -/

namespace Sys2Proof.Machine

/-- The registers of the window (R21). -/
inductive Reg where
  | cmd | status | ctrl | id | params
  | domainSizeIn | keyLen | valueIn | valueOut | fSource | fRound | fBit | passCount
  | cfgDomainSize | cfgSourceBits | cfgTargetBits | cfgDomainBits | cfgRounds
  | key (j : Fin 8)
  deriving DecidableEq, Repr

/-- The window offset of a register (R21). -/
def Reg.offset (r : Reg) : Nat :=
  match r with
  | .cmd => 0x000
  | .status => 0x008
  | .ctrl => 0x010
  | .id => 0x018
  | .params => 0x020
  | .domainSizeIn => 0x040
  | .keyLen => 0x048
  | .valueIn => 0x050
  | .valueOut => 0x058
  | .fSource => 0x060
  | .fRound => 0x068
  | .fBit => 0x070
  | .passCount => 0x078
  | .cfgDomainSize => 0x080
  | .cfgSourceBits => 0x088
  | .cfgTargetBits => 0x090
  | .cfgDomainBits => 0x098
  | .cfgRounds => 0x0A0
  | .key j => 0x100 + 8 * j.val

/-- Every register of the window, in the map's order (R21). -/
def Reg.all : List Reg :=
  [.cmd, .status, .ctrl, .id, .params, .domainSizeIn, .keyLen, .valueIn, .valueOut, .fSource, .fRound, .fBit,
    .passCount, .cfgDomainSize, .cfgSourceBits, .cfgTargetBits, .cfgDomainBits, .cfgRounds, .key 0, .key 1, .key 2,
    .key 3, .key 4, .key 5, .key 6, .key 7]

/-- The size of a register in bytes: CMD is 32 bits, every other register 64 (R20, R24). -/
def Reg.bytes (r : Reg) : Nat := if r = .cmd then 4 else 8

/-- Whether a window offset is one of a register's bytes (R21, R64). -/
def Reg.holds (r : Reg) (offset : Nat) : Bool := decide (r.offset ≤ offset ∧ offset < r.offset + r.bytes)

/-- The register that holds a window offset, or none where the map reserves it (R21, R43), 0x004 to 0x007 among them. -/
def regAt (offset : Nat) : Option Reg := Reg.all.find? fun r => r.holds offset

/-- The operand registers, which a write while BUSY = 1 does not change (R67, R246). -/
def Reg.isOperand (r : Reg) : Bool :=
  match r with
  | .domainSizeIn | .keyLen | .valueIn | .fSource | .fRound | .key _ => true
  | .cmd | .status | .ctrl | .id | .params | .valueOut | .fBit | .passCount => false
  | .cfgDomainSize | .cfgSourceBits | .cfgTargetBits | .cfgDomainBits | .cfgRounds => false

/-- ID (R27): RSV 0, REV 1, MAGIC 0x31455046. -/
def idWord : Word := (0 : BitVec 16) ++ (0x0001 : BitVec 16) ++ (0x31455046 : BitVec 32)

/-- PARAMS of an instance (R28). -/
def paramsWord (p : Primitives) : Word :=
  (0 : BitVec 24) ++ BitVec.ofNat 8 Config.rawKeyMax ++ BitVec.ofNat 8 p.digestBytes ++ BitVec.ofNat 8 p.blockBytes ++
    BitVec.ofNat 8 p.keyBytes ++ BitVec.ofNat 8 Config.maxDomainBits

/-- What a register reads as, all 64 bits (R21, R24 to R41); a write-only register reads 0 (R24, R33). -/
def State.readReg (s : State) (r : Reg) : Word :=
  match r with
  | .cmd => 0
  | .status => s.status.word
  | .ctrl => ctrlWord s.ctrlIE
  | .id => idWord
  | .params => paramsWord Config.hardware
  | .domainSizeIn => s.domainSizeIn
  | .keyLen => s.keyLen.setWidth 64
  | .valueIn => s.valueIn
  | .valueOut => s.valueOut
  | .fSource => s.fSource
  | .fRound => s.fRound
  | .fBit => (BitVec.ofBool s.fBit).setWidth 64
  | .passCount => s.passCount
  | .cfgDomainSize => s.cfgDomainSize
  | .cfgSourceBits => s.cfgSourceBits
  | .cfgTargetBits => s.cfgTargetBits
  | .cfgDomainBits => s.cfgDomainBits
  | .cfgRounds => s.cfgRounds
  | .key _ => 0

/-- What an operand register holds, the write-only KEY0 to KEY7 among them; the half a 4-byte write does not reach
keeps this (R63). 0 for any other register. -/
def State.operandHeld (s : State) (r : Reg) : Word :=
  match r with
  | .domainSizeIn => s.domainSizeIn
  | .keyLen => s.keyLen.setWidth 64
  | .valueIn => s.valueIn
  | .fSource => s.fSource
  | .fRound => s.fRound
  | .key j => s.keybuf.get j
  | .cmd | .status | .ctrl | .id | .params | .valueOut | .fBit | .passCount => 0
  | .cfgDomainSize | .cfgSourceBits | .cfgTargetBits | .cfgDomainBits | .cfgRounds => 0

/-- Store a whole value in an operand register (R67); KEY_LEN keeps bits 7:0 only (R30). No other register changes. -/
def State.storeOperand (s : State) (r : Reg) (w : Word) : State :=
  match r with
  | .domainSizeIn => { s with domainSizeIn := w }
  | .keyLen => { s with keyLen := w.setWidth 8 }
  | .valueIn => { s with valueIn := w }
  | .fSource => { s with fSource := w }
  | .fRound => { s with fRound := w }
  | .key j => { s with keybuf := s.keybuf.set j.val w }
  | .cmd | .status | .ctrl | .id | .params | .valueOut | .fBit | .passCount => s
  | .cfgDomainSize | .cfgSourceBits | .cfgTargetBits | .cfgDomainBits | .cfgRounds => s

/-- A dropped write sets the sticky bit BUSYWR (R67, R208, R246). -/
def State.noteDroppedWrite (s : State) : State := { s with status := { s.status with busywr := true } }

/-- Acceptance of a command word (R210). -/
def State.accept (s : State) (w : CmdWord) : State :=
  { s with pending := some w, status := s.status.accepted }

/-- Successful completion, `complete_ok()` (R211). -/
def State.completeOk (s : State) : State :=
  { s with scratch := Scratch.cleared, pending := none, status := s.status.completedOk }

/-- Error completion, `complete_err(code)`, this block's taking of an exception (R212): STATUS records the code, the
block becomes idle, and control goes nowhere. There is no return operation (R215): the next acceptance clears ERR. -/
def State.completeErr (s : State) (code : ErrorCode) : State :=
  { s with scratch := Scratch.cleared, pending := none, status := s.status.completedErr code }

/-- `clear_secrets()` (R183). -/
def State.clearSecrets (s : State) : State :=
  { s with
    skey := zeros Config.keyBytes
    rkey := zeros Config.keyBytes
    slotS := false
    slotR := false
    status := { s.status with ready := false }
    cfgDomainSize := 0
    cfgSourceBits := 0
    cfgTargetBits := 0
    cfgDomainBits := 0
    cfgRounds := 0
    valueOut := 0
    fBit := false
    passCount := 0 }

/-- `KEYBUF <- zeros(64)` (R113, R182). -/
def State.clearKeybuf (s : State) : State := { s with keybuf := Vector.replicate 8 0 }

/-- `draw prim_ok` has been taken: the next draw is a fresh free value (R7; log 4). -/
def State.drawNext (s : State) : State :=
  { s with primOk := Config.primOk s.drawCount, drawCount := s.drawCount + 1 }

/-- The reset input (R240 to R242): every piece of the block's state takes its reset value, a pending command is
abandoned, and only the turns and draws still to come, which are the environment's, go on. -/
def State.applyReset (s : State) : State :=
  { State.reset with schedule := s.schedule, primOk := s.primOk, drawCount := s.drawCount }

end Sys2Proof.Machine
end

