-- ==== Sys2Proof/Machine/Bus.lean ====
section
/-! DEFINITION. Host accesses to the register window (spec/20_memory.md R60 to R68). -/

namespace Sys2Proof.Machine

/-- R61: 4 bytes at a multiple of 4, or 8 bytes at a multiple of 8, inside the window. -/
def legalAccess (offset size : Nat) : Bool :=
  (size == 4 || size == 8) && offset % size == 0 && decide (offset + size ≤ Config.windowBytes)

/-- The 64-bit value that an access at an offset reads from: the register's that holds it, 0 at a reserved one (R43). -/
def State.doublewordAt (s : State) (offset : Nat) : Word :=
  match regAt offset with
  | some r => s.readReg r
  | none => 0

/-- The byte the window reads at an offset (R64). -/
def State.windowByte (s : State) (offset : Nat) : Byte := byteOfWord (s.doublewordAt offset) (offset % 8)

/-- `MemRead(addr, n)` (R62): the reply to a read. No read changes the state (R66). -/
def State.memRead (s : State) (offset size : Nat) : BusReply :=
  if legalAccess offset size then .readData (readLanes offset size (s.doublewordAt offset)) else .busError

/-- The data a reply carries: 0 with a bus error (R62) and with a write. -/
def BusReply.data (r : BusReply) : Word :=
  match r with
  | .readData w => w
  | .writeDone => 0
  | .busError => 0

/-- A write to CMD's 32 bits (R24, R67): accepted, or dropped with BUSYWR while a command is pending. -/
def State.writeCmd (s : State) (w : CmdWord) : State :=
  if s.status.busy then s.noteDroppedWrite else s.accept w

/-- A write to an operand register (R63, R67): stored in the bits it reaches, or dropped while BUSY = 1, when it sets
BUSYWR whichever half of the register it reaches (R208; log 8). -/
def State.writeOperand (s : State) (r : Reg) (offset size : Nat) (data : Word) : State :=
  if s.status.busy then s.noteDroppedWrite
  else s.storeOperand r (mergeLanes offset size (s.operandHeld r) data)

/-- `write_effect(addr, n, v)` of a legal write, by target (R67). A write to a read-only register or a reserved offset
is ignored (R43), 0x004 to 0x007 among these (R24, R85). -/
def State.writeEffect (s : State) (offset size : Nat) (data : Word) : State :=
  match regAt offset with
  | none => s
  | some .cmd => s.writeCmd (data.setWidth 32)
  | some .status => { s with status := s.status.clearedBy (laneData offset size data) }
  | some .ctrl => { s with ctrlIE := (mergeLanes offset size (ctrlWord s.ctrlIE) data).getLsbD 0 }
  | some r => if r.isOperand then s.writeOperand r offset size data else s

/-- `MemWrite(addr, n, v)` (R62): the reply and the state after it. A bus error changes nothing. -/
def State.memWrite (s : State) (offset size : Nat) (data : Word) : BusReply × State :=
  if legalAccess offset size then (.writeDone, s.writeEffect offset size data) else (.busError, s)

/-- One host access as a step of the model. A bus error is a host-side fault (R62; U3 of
93_implementation_defined.md; log 14). -/
def hostAccess (a : Access) (s : State) : Host.Outcome State Fault Refusal :=
  match a with
  | .read offset size =>
    if legalAccess offset size then .next { s with busReply := some (s.memRead offset size) }
    else .fault (.busError offset size)
  | .write offset size data =>
    if legalAccess offset size then
      .next { (s.memWrite offset size data).2 with busReply := some (s.memWrite offset size data).1 }
    else .fault (.busError offset size)

/-- The window offset of a bus address, for an address in the window at BASE (R20, R60); the platform routes no other
address to the block (R69; log 11). -/
def windowOffset (address : Nat) : Option Nat :=
  if Config.base ≤ address ∧ address < Config.base + Config.windowBytes then some (address - Config.base) else none

end Sys2Proof.Machine
end

