-- ==== Sys2Proof/Syntax.lean ====
section
/-! DEFINITION. The commands of the block: one constructor per row of spec/opcode_table.json
(spec/30_encoding.md R81). The command word carries no operand (R84). -/

namespace Sys2Proof

/-- The five commands (R81). Any other command word is illegal and is no instruction (R83). -/
inductive Instr where
  /-- CONFIG, 0x01: construction from DOMAIN_SIZE_IN, KEY_LEN and KEYBUF (R113). -/
  | config
  /-- ENCRYPT, 0x02: `encrypt(VALUE_IN)` (R150). -/
  | encrypt
  /-- DECRYPT, 0x03: `decrypt(VALUE_IN)` (R151). -/
  | decrypt
  /-- FEVAL, 0x04: `f(F_SOURCE, F_ROUND)` (R115). -/
  | feval
  /-- ZEROIZE, 0x05: destruction with zeroization (R182). -/
  | zeroize
  deriving DecidableEq, Repr

end Sys2Proof
end

