-- ==== Sys2Proof/WellFormed.lean ====
section
/-! DEFINITION. Well-formedness of commands and command words (spec/30_encoding.md R80 to R84). -/

namespace Sys2Proof

/-- A command has no operand field (R84), so every term of `Instr` is well formed. -/
def Instr.wellFormed (i : Instr) : Bool :=
  match i with
  | .config => true
  | .encrypt => true
  | .decrypt => true
  | .feval => true
  | .zeroize => true

/-- The OPCODE field, bits 7:0 (R80). -/
def CmdWord.opcode (w : CmdWord) : Byte := w.extractLsb' 0 8

/-- The RSV field, bits 31:8, which must be 0 (R80). -/
def CmdWord.reserved (w : CmdWord) : BitVec 24 := w.extractLsb' 8 24

/-- R82: a command word is legal if and only if RSV = 0 and OPCODE is one of 0x01 to 0x05. -/
def CmdWord.wellFormed (w : CmdWord) : Bool :=
  CmdWord.reserved w == 0 && (1 ≤ (CmdWord.opcode w).toNat && (CmdWord.opcode w).toNat ≤ 5)

end Sys2Proof
end

