-- ==== Sys2Proof/Decode.lean ====
section
/-! DEFINITION. Decoding of command words and, after it, the encoder (spec/30_encoding.md R80 to R85, R88).
Decoding is total: every 32-bit word is one of the five commands or rejected by name (R83). -/

namespace Sys2Proof

/-- Why a command word is illegal (R83), or why bytes hold no command word. -/
inductive IllegalWord where
  /-- RSV, bits 31:8, is not 0. -/
  | reservedBits
  /-- RSV is 0 and OPCODE is 0x00 or 0x06 to 0xFF. -/
  | unassignedOpcode
  /-- Fewer than four bytes: no command word. -/
  | truncated
  deriving DecidableEq, Repr

/-- The command of an opcode (R81), if one is assigned. -/
def opcodeCommand (op : Byte) : Option Instr :=
  if op = 0x01 then some .config
  else if op = 0x02 then some .encrypt
  else if op = 0x03 then some .decrypt
  else if op = 0x04 then some .feval
  else if op = 0x05 then some .zeroize
  else none

/-- The decoder of one command word (R82, R83). -/
def decode (w : CmdWord) : Except IllegalWord Instr :=
  if CmdWord.reserved w = 0 then
    match opcodeCommand (CmdWord.opcode w) with
    | some i => .ok i
    | none => .error .unassignedOpcode
  else .error .reservedBits

/-- The command word of four bytes in window order, little-endian (20_memory.md R64). -/
def wordOfBytes (b0 b1 b2 b3 : Byte) : CmdWord := b3 ++ b2 ++ b1 ++ b0

/-- The decoder over bytes: the command and the bytes after it (R80: every command is four bytes). -/
def decodeBytes (bs : List Byte) : Except IllegalWord (Instr × List Byte) :=
  match bs with
  | b0 :: b1 :: b2 :: b3 :: rest =>
    match decode (wordOfBytes b0 b1 b2 b3) with
    | .ok i => .ok (i, rest)
    | .error e => .error e
  | _ => .error .truncated

/-- The opcode of a command (R81). -/
def Instr.opcode (i : Instr) : Byte :=
  match i with
  | .config => 0x01
  | .encrypt => 0x02
  | .decrypt => 0x03
  | .feval => 0x04
  | .zeroize => 0x05

/-- The command word of a command: RSV = 0 above its opcode (R80, R88). -/
def encode (i : Instr) : CmdWord := (0 : BitVec 24) ++ i.opcode

/-- The four bytes of a 32-bit word as the window holds them, lowest address first (R64, R88). -/
def bytesOfWord (w : CmdWord) : List Byte :=
  [w.extractLsb' 0 8, w.extractLsb' 8 8, w.extractLsb' 16 8, w.extractLsb' 24 8]

/-- The bytes of a command, lowest address first. -/
def encodeBytes (i : Instr) : List Byte := bytesOfWord (encode i)

/-- The 32-bit command word of an opcode-table row's bits: the bits from `nbits` up are 0. -/
def tableWord (nbits w : Nat) : CmdWord := BitVec.ofNat 32 (w % 2 ^ nbits)

/-- The instruction the decoder reads from the bytes of an opcode-table row's word. -/
def decodeTableWord (nbits w : Nat) : Option Instr :=
  match decodeBytes (bytesOfWord (tableWord nbits w)) with
  | .ok (i, _) => some i
  | .error _ => none

end Sys2Proof
end

