-- ==== Sys2Proof/Machine/RoundFunction.lean ====
section
/-! DEFINITION. The bit partition of the domain, the key derivation and the round function f
(spec/40_round_function.md R100 to R111). Pure functions; the primitives are an argument. -/

namespace Sys2Proof.Machine

/-- `next_pow2(n)` (R100): the smallest power of two that is at least n, for n >= 1. -/
def nextPow2 (n : Nat) : Nat := if n ≤ 1 then 1 else 2 ^ (Nat.log2 (n - 1) + 1)

/-- `int_log2(p)` (R101): the e with 2^e = p, for p a power of two. -/
def intLog2 (p : Nat) : Nat := Nat.log2 p

/-- The three integers of the bit partition (R102). `sourceBits` is signed: it is -1 for N = 1. -/
structure Partition where
  targetBits : Nat
  sourceBits : Int
  domainBits : Nat
  deriving DecidableEq, Repr

/-- `partition(N)` (R102), for N >= 1. -/
def partition (n : Nat) : Partition :=
  let tb := Config.targetBits
  let sb : Int := (intLog2 (nextPow2 n) : Int) - (tb : Int)
  { targetBits := tb, sourceBits := sb, domainBits := (sb + (tb : Int)).toNat }

/-- LABEL_SOURCE = "for key", 7 ASCII bytes (R105). -/
def labelSource : List Byte := [0x66, 0x6F, 0x72, 0x20, 0x6B, 0x65, 0x79]

/-- LABEL_ROUND = "for round", 9 ASCII bytes (R105). -/
def labelRound : List Byte := [0x66, 0x6F, 0x72, 0x20, 0x72, 0x6F, 0x75, 0x6E, 0x64]

/-- One derived key (R106): the first K bytes of the MAC of a label under the raw key. -/
def deriveKey (p : Primitives) (raw label : List Byte) : List Byte := (p.mac raw label).take p.keyBytes

/-- The round function f(s, r) under the two keys (R110). Slot S encrypts under `skey`, slot R under `rkey` (R45). -/
def roundBit (p : Primitives) (skey rkey : List Byte) (s r : Nat) : Bool :=
  let roundBlock := encodeLe p.blockBytes r
  let roundCipher := p.blockEncrypt rkey roundBlock
  let sourceBlock := encodeLe p.blockBytes s
  let masked := xorBlocks sourceBlock roundCipher
  let targetBlock := p.blockEncrypt skey masked
  (targetBlock.headD 0).getLsbD 0

/-- f under the keys the block holds, through its own primitives (R110, R111). -/
def State.roundBit (s : State) : Nat → Nat → Bool :=
  Sys2Proof.Machine.roundBit Config.hardware s.skey s.rkey

end Sys2Proof.Machine
end

