-- ==== Sys2Proof/Machine/Network.lean ====
section
/-! DEFINITION. The Feistel bit-swap network and the cycle walk (spec/41_feistel.md R140 to R148), over naturals.
`f` is the round function, `sb` the number of source bits, `rounds` the round count 4*db. -/

namespace Sys2Proof.Machine

/-- Forward round (R141), with tb = 1: the source moves up one place, the target, XORed with f, goes to bit 0. -/
def fwd (f : Nat → Nat → Bool) (sb v r : Nat) : Nat :=
  let s := v &&& ((1 <<< sb) - 1)
  let t := v >>> sb
  let t' := t ^^^ (f s r).toNat
  (s <<< Config.targetBits) ||| t'

/-- Inverse round (R142). -/
def inv (f : Nat → Nat → Bool) (sb v r : Nat) : Nat :=
  let s := v >>> Config.targetBits
  let t := v &&& ((1 <<< Config.targetBits) - 1)
  let t' := t ^^^ (f s r).toNat
  s ||| (t' <<< sb)

/-- One forward pass P (R144): `fwd` for r = 0, 1, ..., rounds - 1 in increasing order. -/
def pass (f : Nat → Nat → Bool) (sb : Nat) : Nat → Nat → Nat
  | 0, v => v
  | r + 1, v => fwd f sb (pass f sb r v) r

/-- One inverse pass Pinv (R145): `inv` for r = rounds - 1 down to 0. -/
def passInv (f : Nat → Nat → Bool) (sb : Nat) : Nat → Nat → Nat
  | 0, v => v
  | r + 1, v => passInv f sb r (inv f sb v r)

/-- The cycle walk (R146, R147): repeat the pass, at least once, until the value is in [0, n); the result is the
value and the number of passes. The first argument after `n` bounds the passes: `none` when it runs out. -/
def walk (step : Nat → Nat) (n : Nat) : Nat → Nat → Option (Nat × Nat)
  | 0, _ => none
  | k + 1, v =>
    let w := step v
    if w < n then some (w, 1)
    else
      match walk step n k w with
      | some (c, p) => some (c, p + 1)
      | none => none

/-- The number of passes a walk never exceeds: 2^db - N + 1 (R148). -/
def passBound (n db : Nat) : Nat := 2 ^ db - n + 1

/-- `enc_walk(v)` (R146). -/
def encWalk (f : Nat → Nat → Bool) (n sb db v : Nat) : Option (Nat × Nat) :=
  walk (pass f sb (Config.roundsPerBit * db)) n (passBound n db) v

/-- `dec_walk(v)` (R147). -/
def decWalk (f : Nat → Nat → Bool) (n sb db v : Nat) : Option (Nat × Nat) :=
  walk (passInv f sb (Config.roundsPerBit * db)) n (passBound n db) v

/-- The number of source bits as the network uses it: CFG_SOURCE_BITS read as a signed value (R38, R150).
It is -1 only when db = 0, where no round runs and no shift by it is taken (R153; log 7). -/
def State.shiftBits (s : State) : Nat := s.cfgSourceBits.toInt.toNat

/-- The encrypt walk of the configured block on VALUE_IN (R150). -/
def State.encWalk (s : State) : Option (Nat × Nat) :=
  Sys2Proof.Machine.encWalk s.roundBit s.cfgDomainSize.toNat s.shiftBits s.cfgDomainBits.toNat s.valueIn.toNat

/-- The decrypt walk of the configured block on VALUE_IN (R151). -/
def State.decWalk (s : State) : Option (Nat × Nat) :=
  Sys2Proof.Machine.decWalk s.roundBit s.cfgDomainSize.toNat s.shiftBits s.cfgDomainBits.toNat s.valueIn.toNat

end Sys2Proof.Machine
end

