-- ==== Sys2Proof/Machine/Cipher.lean ====
section
/-! DEFINITION. The meanings of ENCRYPT and DECRYPT (spec/41_feistel.md R150, R151). -/

namespace Sys2Proof.Machine

/-- The end of a walk (R150, R151): VALUE_OUT and PASS_COUNT take its result and the command completes. A walk that
does not end is the fault of log 6. -/
def State.finishWalk (s : State) (result : Option (Nat × Nat)) : Host.Outcome State Fault Refusal :=
  match result with
  | some (c, p) => .next ({ s with valueOut := BitVec.ofNat 64 c, passCount := BitVec.ofNat 64 p }).completeOk
  | none => .fault .cycleWalkDoesNotEnd

/-- ENCRYPT (R150). -/
def execEncrypt (s : State) : Host.Outcome State Fault Refusal :=
  if s.status.ready = false then .next (s.completeErr .notReady)
  else if s.cfgDomainSize.toNat ≤ s.valueIn.toNat then .next (s.completeErr .domainValue)
  else s.finishWalk s.encWalk

/-- DECRYPT (R151). -/
def execDecrypt (s : State) : Host.Outcome State Fault Refusal :=
  if s.status.ready = false then .next (s.completeErr .notReady)
  else if s.cfgDomainSize.toNat ≤ s.valueIn.toNat then .next (s.completeErr .domainValue)
  else s.finishWalk s.decWalk

end Sys2Proof.Machine
end

