-- ==== Sys2Proof/Machine/Construction.lean ====
section
/-! DEFINITION. The meanings of CONFIG and FEVAL (spec/40_round_function.md R113 to R115). -/

namespace Sys2Proof.Machine

/-- The writes of CONFIG after every check has passed (R113): derive the keys, set the slots, latch CFG_*, READY <- 1.
`raw` is the raw key and `n` the domain size, both read before anything was cleared. -/
def State.construct (s : State) (n : Word) (raw : List Byte) : State :=
  let part := partition n.toNat
  { s with
    skey := deriveKey Config.hardware raw labelSource
    rkey := deriveKey Config.hardware raw labelRound
    slotS := true
    slotR := true
    cfgDomainSize := n
    cfgSourceBits := BitVec.ofInt 64 part.sourceBits
    cfgTargetBits := BitVec.ofNat 64 part.targetBits
    cfgDomainBits := BitVec.ofNat 64 part.domainBits
    cfgRounds := BitVec.ofNat 64 (Config.roundsPerBit * part.domainBits)
    status := { s.status with ready := true } }

/-- CONFIG (R113): `new(domain_size, raw_key)`. The old object is destroyed before anything is checked (R114). -/
def execConfig (s : State) : Host.Outcome State Fault Refusal :=
  let n := s.domainSizeIn
  let raw := s.rawKey
  let cleared := s.clearSecrets.clearKeybuf
  if n = 0 then .next (cleared.completeErr .domainSize)
  else if (partition n.toNat).domainBits > Config.maxDomainBits then .next (cleared.completeErr .domainSize)
  else if s.keyLen.toNat > Config.rawKeyMax then .next (cleared.completeErr .keyLen)
  else if s.primOk = false then .next (cleared.drawNext.completeErr .primitive)
  else .next ((cleared.drawNext.construct n raw).completeOk)

/-- FEVAL (R115): `f(F_SOURCE, F_ROUND)`, with no range check. -/
def execFeval (s : State) : Host.Outcome State Fault Refusal :=
  if s.status.ready = false then .next (s.completeErr .notReady)
  else .next ({ s with fBit := s.roundBit s.fSource.toNat s.fRound.toNat }).completeOk

end Sys2Proof.Machine
end

