-- ==== Sys2Proof/Machine/Lifecycle.lean ====
section
/-! DEFINITION. The meaning of ZEROIZE (spec/42_lifecycle.md R182). -/

namespace Sys2Proof.Machine

/-- The data clearing of ZEROIZE (R182): secrets, results, accessors, key buffer and operand registers.
CTRL and BUSYWR are kept. -/
def State.zeroizeData (s : State) : State :=
  { s.clearSecrets.clearKeybuf with keyLen := 0, domainSizeIn := 0, valueIn := 0, fSource := 0, fRound := 0 }

/-- ZEROIZE (R182): legal in both lifecycle states, always succeeds. -/
def execZeroize (s : State) : Host.Outcome State Fault Refusal := .next s.zeroizeData.completeOk

end Sys2Proof.Machine
end

