-- ==== Sys2Proof/Machine/Dispatch.lean ====
section
/-! DEFINITION. One arm per command: its completion step (spec/60_exceptions.md R211, R212). -/

namespace Sys2Proof.Machine

def exec (i : Instr) (s : State) : Host.Outcome State Fault Refusal :=
  match i with
  | .config => Sys2Proof.Machine.execConfig s
  | .encrypt => Sys2Proof.Machine.execEncrypt s
  | .decrypt => Sys2Proof.Machine.execDecrypt s
  | .feval => Sys2Proof.Machine.execFeval s
  | .zeroize => Sys2Proof.Machine.execZeroize s

end Sys2Proof.Machine
end

