-- ==== Sys2Proof/Machine/Engine.lean ====
section
/-! DEFINITION. The engine's step and the choice of who moves next (spec/00_scope.md R7; spec/20_memory.md R71;
spec/60_exceptions.md R205, R211, R219). -/

namespace Sys2Proof.Machine

/-- The engine's step (R211): the pending word is decoded and its command completes; an illegal word completes with
ILLEGAL_CMD (R205). With nothing pending the block is idle and keeps its state (R228). -/
def engineStep (s : State) : Host.Outcome State Fault Refusal :=
  match s.pending with
  | none => .next s
  | some w =>
    match decode w with
    | .ok i => exec i s
    | .error _ => .next (s.completeErr .illegalCmd)

/-- One turn (R7, R71, R219). -/
def takeTurn (t : Turn) (s : State) : Host.Outcome State Fault Refusal :=
  match t with
  | .host a => hostAccess a s
  | .reset => .next s.applyReset
  | .engine => engineStep s

/-- The next turn of the schedule. When no turn is left the engine moves: every pending command completes (R249;
log 2). -/
def nextTurn (s : State) : Host.Outcome State Fault Refusal :=
  match s.schedule with
  | [] => engineStep s
  | t :: rest => takeTurn t { s with schedule := rest }

/-- The engine moves next, whatever else waits. -/
def State.engineFirst (s : State) : State :=
  match s.schedule with
  | [] => s
  | t :: rest => { s with schedule := .engine :: t :: rest }

end Sys2Proof.Machine
end

