-- ==== Sys2Proof/Machine/Step.lean ====
section
/-! DEFINITION. One step of the machine, and a command word placed where the next step takes it. -/

namespace Sys2Proof.Machine

/-- One step: the next turn (00_scope.md R7; 20_memory.md R71). -/
def step (s : State) : Host.Outcome State Fault Refusal := nextTurn s

/-- `s` with the command word of an opcode-table row accepted and the engine moving next, so that the next step runs
it. The block fetches nothing (R23, R74): a command comes to run by the host's write to CMD (R210), which this stands
for (log 1). -/
def State.withFetchWord (s : State) (nbits w : Nat) : State := (s.accept (tableWord nbits w)).engineFirst

end Sys2Proof.Machine
end

