-- ==== Sys2Proof/Machine/HostSyntax.lean ====
section
/-! DEFINITION. The host's transaction notation and its pseudo-instructions as turns (spec/30_encoding.md R86, R87). -/

namespace Sys2Proof.Machine

/-- `wr64 @offset, imm64` (R86). -/
def wr64At (offset : Nat) (imm : Word) : Turn := .host (.write offset 8 imm)

/-- `wr64 REG, imm64` (R86). -/
def wr64 (r : Reg) (imm : Word) : Turn := wr64At r.offset imm

/-- `wr32 REG, imm32` (R86). -/
def wr32 (r : Reg) (imm : BitVec 32) : Turn := .host (.write r.offset 4 (imm.setWidth 64))

/-- `wr32 REG.hi, imm32` (R86). -/
def wr32hi (r : Reg) (imm : BitVec 32) : Turn := .host (.write (r.offset + 4) 4 (imm.setWidth 64))

/-- `rd64 REG` (R86). -/
def rd64 (r : Reg) : Turn := .host (.read r.offset 8)

/-- `rd32 REG` (R86). -/
def rd32 (r : Reg) : Turn := .host (.read r.offset 4)

/-- `rd32 REG.hi` (R86). -/
def rd32hi (r : Reg) : Turn := .host (.read (r.offset + 4) 4)

/-- `cmd NAME` (R87). -/
def cmd (i : Instr) : Turn := wr32 .cmd (encode i)

/-- `poll` (R87): read STATUS until BUSY = 0. `early` reads come before the engine completes, one after; every run of
the host's loop is one of these (log 10). -/
def poll (early : Nat) : List Turn := List.replicate early (rd64 .status) ++ [.engine, rd64 .status]

/-- `run NAME` (R87). -/
def runCommand (i : Instr) (early : Nat) : List Turn := cmd i :: poll early

/-- `setkey "s"` (R87): KEY_LEN, then KEYj = le64(s[8j .. 8j+7] padded with zero bytes) for j = 0 .. ceil(len/8) - 1.
DESIGN CHOICE (log 19): R87 gives no expansion for more than 64 bytes, where KEYj with j >= 8 names no register; the
list then goes on at offset 0x100 + 8j, and its first write is the length modulo 2^64. -/
def setkey (bs : List Byte) : List Turn :=
  wr64 .keyLen (BitVec.ofNat 64 bs.length) ::
    (List.range ((bs.length + 7) / 8)).map fun j => wr64At (0x100 + 8 * j) (wordOfLeBytes ((bs.drop (8 * j)).take 8))

/-- `clrdone` (R87). -/
def clrdone : Turn := wr64 .status 0x4

/-- `clrbusywr` (R87). -/
def clrbusywr : Turn := wr64 .status 0x10

end Sys2Proof.Machine
end

