-- ==== Sys2Proof/Safety.lean ====
section
/-! DEFINITION. The invariant of the block, what its host can see of a state, and when a run is over
(spec/10_state.md R25, R42 to R48; spec/42_lifecycle.md R180, R185; spec/20_memory.md R75). -/

namespace Sys2Proof.Machine

/-- The CFG_* registers are those a CONFIG of a legal domain size latches (R102, R103, R113, R42). -/
structure State.CfgLatched (s : State) : Prop where
  domainSize_legal : 1 ≤ s.cfgDomainSize.toNat ∧ s.cfgDomainSize.toNat ≤ 2 ^ Config.maxDomainBits
  sourceBits : s.cfgSourceBits = BitVec.ofInt 64 (partition s.cfgDomainSize.toNat).sourceBits
  targetBits : s.cfgTargetBits = 1
  domainBits : s.cfgDomainBits = BitVec.ofNat 64 (partition s.cfgDomainSize.toNat).domainBits
  rounds : s.cfgRounds = BitVec.ofNat 64 (Config.roundsPerBit * (partition s.cfgDomainSize.toNat).domainBits)

/-- Nothing is constructed: keys, slots, accessors and results are clear (R180, R183). -/
structure State.Unconstructed (s : State) : Prop where
  skey : s.skey = zeros Config.keyBytes
  rkey : s.rkey = zeros Config.keyBytes
  slots : s.slotS = false ∧ s.slotR = false
  accessors : s.cfgDomainSize = 0 ∧ s.cfgSourceBits = 0 ∧ s.cfgTargetBits = 0 ∧ s.cfgDomainBits = 0 ∧ s.cfgRounds = 0
  results : s.valueOut = 0 ∧ s.fBit = false ∧ s.passCount = 0

/-- The block is constructed: both keys come from one raw key of at most 64 bytes, the slots are set, the accessors
are latched, and the results lie in their ranges (R34, R36, R48, R106). -/
structure State.Constructed (s : State) : Prop where
  keys : ∃ raw : List Byte, raw.length ≤ Config.rawKeyMax ∧ s.skey = deriveKey Config.hardware raw labelSource ∧
    s.rkey = deriveKey Config.hardware raw labelRound
  slots : s.slotS = true ∧ s.slotR = true
  accessors : s.CfgLatched
  valueOut_in_domain : s.valueOut.toNat < s.cfgDomainSize.toNat
  passCount_bounded : s.passCount.toNat ≤ passBound s.cfgDomainSize.toNat s.cfgDomainBits.toNat

/-- The legal combinations of STATUS (R25): BUSY = 1 implies DONE = 0, ERR = 0 and ERR_CODE = 0x00; ERR = 1 exactly
when ERR_CODE is not 0x00. -/
structure Status.LegalCombination (st : Status) : Prop where
  busy_quiet : st.busy = true → st.done = false ∧ st.err = false ∧ st.errCode = .noError
  err_iff_code : st.err = true ↔ st.errCode ≠ .noError

/-- The invariant of the block. -/
structure State.Inv (s : State) : Prop where
  status_legal : s.status.LegalCombination
  busy_iff_pending : s.status.busy = s.pending.isSome
  key_lengths : s.skey.length = Config.keyBytes ∧ s.rkey.length = Config.keyBytes
  scratch_clear : s.scratch = Scratch.cleared
  notReady_clear : s.status.ready = false → s.Unconstructed
  ready_constructed : s.status.ready = true → s.Constructed

/-- Two states that agree in everything but the keys, the slots, the key buffer, the scratch and the environment's draws: the
host's view of the block is the rest (R185). -/
structure State.SameButSecrets (s t : State) : Prop where
  status : s.status = t.status
  ctrl : s.ctrlIE = t.ctrlIE
  operands : s.domainSizeIn = t.domainSizeIn ∧ s.keyLen = t.keyLen ∧ s.valueIn = t.valueIn ∧ s.fSource = t.fSource ∧
    s.fRound = t.fRound
  results : s.valueOut = t.valueOut ∧ s.fBit = t.fBit ∧ s.passCount = t.passCount
  accessors : s.cfgDomainSize = t.cfgDomainSize ∧ s.cfgSourceBits = t.cfgSourceBits ∧
    s.cfgTargetBits = t.cfgTargetBits ∧ s.cfgDomainBits = t.cfgDomainBits ∧ s.cfgRounds = t.cfgRounds
  pending : s.pending = t.pending
  schedule : s.schedule = t.schedule
  busReply : s.busReply = t.busReply

/-- Whether a turn is a host access the bus refuses (R62). -/
def Turn.isBusError (t : Turn) : Bool :=
  match t with
  | .host (.read offset size) => !legalAccess offset size
  | .host (.write offset size _) => !legalAccess offset size
  | .reset => false
  | .engine => false

/-- Every host access still to come is legal (R61). -/
def State.AccessesLegal (s : State) : Prop := ∀ t ∈ s.schedule, t.isBusError = false

/-- Whether a turn is a host access. -/
def Turn.isHost (t : Turn) : Bool :=
  match t with
  | .host _ => true
  | .reset => false
  | .engine => false

/-- A run is over when the host has made its last access and BUSY = 0 (R75). -/
def State.runOver (s : State) : Bool := s.schedule.all (fun t => !t.isHost) && !s.status.busy

end Sys2Proof.Machine
end

