-- ==== Sys2Proof/Certificates/Slice0/Obligations.lean ====
section
/-! DEFINITION. The statements about the block, for the provers. `R<n>`, `D<n>`, `V<n>` name rules of spec/. -/

open Sys2Proof Sys2Proof.Machine

/-! ### Command words -/

/-- The words of the opcode table decode to their commands and the illegal words of R88 are rejected by name (V16). -/
def Obligations.OpcodeTableWordsDecode : Prop :=
  decode 0x00000001 = .ok .config ∧ decode 0x00000002 = .ok .encrypt ∧ decode 0x00000003 = .ok .decrypt ∧
  decode 0x00000004 = .ok .feval ∧ decode 0x00000005 = .ok .zeroize ∧
  decode 0x00000000 = .error .unassignedOpcode ∧ decode 0x00000006 = .error .unassignedOpcode ∧
  decode 0x000000FF = .error .unassignedOpcode ∧ decode 0x00000102 = .error .reservedBits ∧
  decode 0x80000002 = .error .reservedBits

/-- R82: a word is legal iff w[31:8] = 0 and w[7:0] is one of 1 to 5, and each legal word is matched in full. -/
def Obligations.LegalCommandWordsAreTheFive : Prop :=
  ∀ w : CmdWord,
    ((∃ i, decode w = .ok i) ↔ w.toNat / 2 ^ 8 = 0 ∧ w.toNat % 2 ^ 8 ∈ [1, 2, 3, 4, 5]) ∧
    ∀ i, decode w = .ok i ↔ w = encode i

/-- Decoding the bytes of a command, with anything after them, gives the command and what is after (R81, R88). -/
def Obligations.EncodedCommandsDecodeBack : Prop :=
  ∀ (i : Instr) (rest : List Byte), decodeBytes (encodeBytes i ++ rest) = .ok (i, rest)

/-- R205: an illegal pending word completes with ILLEGAL_CMD and changes nothing but STATUS (and PENDING and the scratch,
as every completion does, R212). -/
def Obligations.IllegalWordCompletesWithIllegalCmd : Prop :=
  ErrorCode.illegalCmd.byte = 0x05 ∧
  ∀ (s : State) (w : CmdWord), s.pending = some w → CmdWord.wellFormed w = false →
    engineStep s = .next
      { s with
        pending := none
        scratch := Scratch.cleared
        status := { s.status with busy := false, done := true, err := true, errCode := .illegalCmd } }

/-! ### The bit partition -/

/-- R100, R101: next_pow2(n) is the smallest power of two that is at least n; int_log2 inverts powers of two, where it is
the ceiling of the binary logarithm. -/
def Obligations.NextPow2IsTheLeastPowerOfTwo : Prop :=
  (∀ n, 1 ≤ n → (∃ e, nextPow2 n = 2 ^ e) ∧ n ≤ nextPow2 n ∧ ∀ e, n ≤ 2 ^ e → nextPow2 n ≤ 2 ^ e) ∧
  nextPow2 1 = 1 ∧ nextPow2 2 = 2 ∧ nextPow2 3 = 4 ∧ nextPow2 17 = 32 ∧
  (∀ n, 2 ^ 63 < n → n < 2 ^ 64 → nextPow2 n = 2 ^ 64) ∧
  ∀ e, intLog2 (2 ^ e) = e ∧ intLog2 (2 ^ e) = Nat.clog 2 (2 ^ e)

/-- R102 to R104: tb = 1, sb = db - 1, and db is the least bit width whose power of two covers [0, N); N is legal
(db <= 63) exactly when N <= 2^63. R104 is marked [derived: from rules R100, R102] by the spec. -/
def Obligations.PartitionIsTheMinimalBitWidth : Prop :=
  ∀ n, 1 ≤ n →
    (partition n).targetBits = 1 ∧
    (partition n).sourceBits = ((partition n).domainBits : Int) - 1 ∧
    (∀ d, (partition n).domainBits ≤ d ↔ n ≤ 2 ^ d) ∧
    (n = 1 ↔ (partition n).sourceBits = -1) ∧
    (1 ≤ (partition n).domainBits →
      2 ^ ((partition n).domainBits - 1) < n ∧
      2 ^ (partition n).domainBits - n < 2 ^ ((partition n).domainBits - 1)) ∧
    (∀ e, n = 2 ^ e → (partition n).domainBits = e) ∧
    ((partition n).domainBits ≤ Config.maxDomainBits ↔ n ≤ 2 ^ 63)

/-! ### Blocks, keys and the round function -/

/-- R108: encode_le(x, BB) is BB bytes, byte i is x[8i+7:8i] for i <= 7 and 0 above, and no bit of x is lost. -/
def Obligations.EncodeLeLosesNoBit : Prop :=
  ∀ bb x, 8 ≤ bb → x < 2 ^ 64 →
    (encodeLe bb x).length = bb ∧
    (∀ i, i ≤ 7 → (encodeLe bb x)[i]?.map BitVec.toNat = some (x / 2 ^ (8 * i) % 2 ^ 8)) ∧
    (∀ i, 8 ≤ i → i < bb → (encodeLe bb x)[i]? = some 0) ∧
    (encodeLe bb x).foldr (fun b acc => b.toNat + 256 * acc) 0 = x

/-- R109: xor_blocks works byte by byte; XOR with the same block twice gives the first block back (V13). -/
def Obligations.XorBlocksIsByteWise : Prop :=
  ∀ a b : List Byte, a.length = b.length →
    (xorBlocks a b).length = a.length ∧
    (∀ i (ha : i < a.length) (hb : i < b.length), (xorBlocks a b)[i]? = some (a[i] ^^^ b[i])) ∧
    xorBlocks (xorBlocks a b) b = a

/-- R105, R106: the labels are the ASCII bytes of "for key" and "for round" with no terminator, and a derived key is K
bytes, the first K bytes of the digest. K and the MAC are open (log 5). -/
def Obligations.DerivedKeysAreDigestPrefixes : Prop :=
  labelSource = [0x66, 0x6F, 0x72, 0x20, 0x6B, 0x65, 0x79] ∧
  labelRound = [0x66, 0x6F, 0x72, 0x20, 0x72, 0x6F, 0x75, 0x6E, 0x64] ∧
  ∀ raw label : List Byte,
    (deriveKey Config.hardware raw label).length = Config.keyBytes ∧
    ∀ i, i < Config.keyBytes →
      (deriveKey Config.hardware raw label)[i]? = some (Config.macByte raw label i)

/-- R33, R68: the raw key is the first min(L, 64) bytes of KEYBUF, and KEYj bits [8m+7:8m] are KEYBUF[8j + m], the byte
the host writes at window offset 0x100 + 8j + m; the key "secret key" is written as KEY0 = 0x6B20746572636573, KEY1 = 0x7965 with KEY_LEN = 10. -/
def Obligations.RawKeyIsTheKeyBufferInByteOrder : Prop :=
  (∀ s : State, s.rawKey.length = min s.keyLen.toNat 64 ∧
    ∀ (j : Fin 8) (m : Nat), m < 8 → 8 * j.val + m < min s.keyLen.toNat 64 →
      s.rawKey[8 * j.val + m]? = some ((s.keybuf.get j).extractLsb' (8 * m) 8)) ∧
  (∀ (s : State) (j : Fin 8) (v : Word) (m : Nat), s.status.busy = false → m < 8 →
    8 * j.val + m < min s.keyLen.toNat 64 →
      (s.memWrite (0x100 + 8 * j.val) 8 v).2.rawKey[8 * j.val + m]? = some (v.extractLsb' (8 * m) 8)) ∧
  ∀ s : State, s.status.busy = false →
    ((((s.memWrite 0x048 8 10).2.memWrite 0x100 8 0x6B20746572636573).2.memWrite 0x108 8 0x7965).2).rawKey =
      [0x73, 0x65, 0x63, 0x72, 0x65, 0x74, 0x20, 0x6B, 0x65, 0x79]

/-- R110: for all primitives, f(s, r) is bit 0 of byte 0 of BlockEncrypt(SKEY, encode_le(s) XOR BlockEncrypt(RKEY,
encode_le(r))): RKEY encrypts the round, SKEY the masked source. So under the identity cipher (IDENT of V20)
f(s, r) = (s ^ r) & 1, whatever the keys (V25). -/
def Obligations.RoundFunctionUnderIdentityCipher : Prop :=
  ∀ (p : Primitives) (skey rkey : List Byte) (s r : Nat), 1 ≤ p.blockBytes →
    roundBit p skey rkey s r =
      (p.encryptByte skey
        (xorBlocks (encodeLe p.blockBytes s)
          ((List.range p.blockBytes).map (p.encryptByte rkey (encodeLe p.blockBytes r)))) 0).getLsbD 0 ∧
    ((∀ key blk i, p.encryptByte key blk i = blk.getD i 0) → roundBit p skey rkey s r = ((s + r) % 2 == 1))

/-! ### The network and the cycle walk, for every round function -/

/-- R140 to R142 in arithmetic: on [0, 2^(sb+1)) a forward round moves the low sb bits up one place and puts the top
bit, XORed with f, at bit 0; an inverse round moves them back. Both stay in the space. -/
def Obligations.RoundsMoveTheSourceBits : Prop :=
  ∀ (f : Nat → Nat → Bool) (sb v r : Nat), v < 2 ^ (sb + 1) →
    fwd f sb v r = 2 * (v % 2 ^ sb) + (v / 2 ^ sb + (f (v % 2 ^ sb) r).toNat) % 2 ∧
    inv f sb v r = v / 2 + 2 ^ sb * ((v % 2 + (f (v / 2) r).toNat) % 2) ∧
    fwd f sb v r < 2 ^ (sb + 1) ∧ inv f sb v r < 2 ^ (sb + 1)

/-- R143 (marked [derived: from rules R141, R142] by the spec): the rounds invert each other, whatever f is. -/
def Obligations.RoundsInvertEachOther : Prop :=
  ∀ (f : Nat → Nat → Bool) (sb v r : Nat), v < 2 ^ (sb + 1) →
    inv f sb (fwd f sb v r) r = v ∧ fwd f sb (inv f sb v r) r = v

/-- R144: a pass applies the forward rounds in increasing round order; R145: an inverse pass applies the inverse rounds
in decreasing order, and (marked [derived: from rules R143, R144] by the spec) P permutes [0, 2^db) and Pinv is its
inverse. -/
def Obligations.PassesInvertEachOther : Prop :=
  (∀ (f : Nat → Nat → Bool) (sb rounds v : Nat),
    pass f sb rounds v = (List.range rounds).foldl (fun w r => fwd f sb w r) v ∧
    passInv f sb rounds v = (List.range rounds).reverse.foldl (fun w r => inv f sb w r) v) ∧
  ∀ (f : Nat → Nat → Bool) (db v : Nat), v < 2 ^ db →
    pass f (db - 1) (4 * db) v < 2 ^ db ∧ passInv f (db - 1) (4 * db) v < 2 ^ db ∧
    passInv f (db - 1) (4 * db) (pass f (db - 1) (4 * db) v) = v ∧
    pass f (db - 1) (4 * db) (passInv f (db - 1) (4 * db) v) = v

/-- R146, R147: a walk gives the first value after v, along the passes, that is in the domain, with the number of
passes; at least one pass is run. The bound of the model's walk is that of R148, so it cuts nothing (log 6). -/
def Obligations.WalksGiveTheFirstReturnToTheDomain : Prop :=
  ∀ (f : Nat → Nat → Bool) (n db v c p : Nat), v < n → n ≤ 2 ^ db →
    (encWalk f n (db - 1) db v = some (c, p) ↔
      1 ≤ p ∧ c = (pass f (db - 1) (4 * db))^[p] v ∧ c < n ∧
        ∀ j, 1 ≤ j → j < p → n ≤ (pass f (db - 1) (4 * db))^[j] v) ∧
    (decWalk f n (db - 1) db v = some (c, p) ↔
      1 ≤ p ∧ c = (passInv f (db - 1) (4 * db))^[p] v ∧ c < n ∧
        ∀ j, 1 ≤ j → j < p → n ≤ (passInv f (db - 1) (4 * db))^[j] v)

/-- R148 (marked [derived: from rules R104, R145, R146, R147] by the spec): from a value in the domain both walks end,
within 2^db - N + 1 passes, for every round function. -/
def Obligations.CycleWalksAlwaysEnd : Prop :=
  ∀ (f : Nat → Nat → Bool) (n db v : Nat), v < n → n ≤ 2 ^ db →
    (∃ c p, encWalk f n (db - 1) db v = some (c, p) ∧ c < n ∧ 1 ≤ p ∧ p ≤ 2 ^ db - n + 1) ∧
    (∃ c p, decWalk f n (db - 1) db v = some (c, p) ∧ c < n ∧ 1 ≤ p ∧ p ≤ 2 ^ db - n + 1)

/-- R149 (marked [derived: from rules R145 to R148] by the spec), second and fourth property: the decrypt walk retraces
the encrypt walk with the same pass count, and the other way round. -/
def Obligations.DecryptWalkRetracesEncryptWalk : Prop :=
  ∀ (f : Nat → Nat → Bool) (n db v w k : Nat), n ≤ 2 ^ db → v < n → w < n →
    (encWalk f n (db - 1) db v = some (w, k) ↔ decWalk f n (db - 1) db w = some (v, k))

/-- R149 (marked [derived: from rules R145 to R148] by the spec), all four properties: for every round function and every legal N, encryption is a bijection of [0, N), and
decryption is its inverse with the same pass count. -/
def Obligations.EncryptionPermutesTheDomain : Prop :=
  ∀ (f : Nat → Nat → Bool) (n : Nat), 1 ≤ n → n ≤ 2 ^ 63 →
    ∃ perm : Equiv.Perm (Fin n), ∀ v : Fin n, ∃ p,
      encWalk f n ((partition n).domainBits - 1) (partition n).domainBits v.val = some ((perm v).val, p) ∧
      decWalk f n ((partition n).domainBits - 1) (partition n).domainBits (perm v).val = some (v.val, p)

/-- R150's corner case, V30: if f is constant, P is the identity, so every walk is one pass that gives v back. -/
def Obligations.ConstantRoundFunctionGivesIdentity : Prop :=
  ∀ (b : Bool) (n db v : Nat), v < n → n ≤ 2 ^ db →
    encWalk (fun _ _ => b) n (db - 1) db v = some (v, 1) ∧ decWalk (fun _ _ => b) n (db - 1) db v = some (v, 1)

/-- The corner case of R150 and R151, V32: for N = 2 the result is v ^ f(0,0) ^ f(0,1) ^ f(0,2) ^ f(0,3), in one pass, in
both directions. -/
def Obligations.TwoElementDomainFlipsByFourBits : Prop :=
  partition 2 = ⟨1, 0, 1⟩ ∧
  ∀ (f : Nat → Nat → Bool) (v : Nat), v < 2 →
    let flipped := (v + (f 0 0).toNat + (f 0 1).toNat + (f 0 2).toNat + (f 0 3).toNat) % 2
    encWalk f 2 0 1 v = some (flipped, 1) ∧ decWalk f 2 0 1 v = some (flipped, 1)

/-- R150's corner case: for N a power of two, one pass always, in both directions. -/
def Obligations.PowerOfTwoDomainsTakeOnePass : Prop :=
  ∀ (f : Nat → Nat → Bool) (e v : Nat), v < 2 ^ e →
    encWalk f (2 ^ e) (e - 1) e v = some (pass f (e - 1) (4 * e) v, 1) ∧
    decWalk f (2 ^ e) (e - 1) e v = some (passInv f (e - 1) (4 * e) v, 1)

/-! ### The commands -/

/-- R113, the construction: with a legal N, L <= 64 and a draw that does not fail, CONFIG completes, and this is all
it changes. -/
def Obligations.ConfigConstructs : Prop :=
  ∀ s : State, 1 ≤ s.domainSizeIn.toNat → s.domainSizeIn.toNat ≤ 2 ^ 63 → s.keyLen.toNat ≤ 64 → s.primOk = true →
    exec .config s = .next
      { s with
        skey := (Config.hardware.mac s.rawKey labelSource).take Config.keyBytes
        rkey := (Config.hardware.mac s.rawKey labelRound).take Config.keyBytes
        slotS := true
        slotR := true
        keybuf := Vector.replicate 8 0
        cfgDomainSize := s.domainSizeIn
        cfgSourceBits := BitVec.ofInt 64 (((partition s.domainSizeIn.toNat).domainBits : Int) - 1)
        cfgTargetBits := 1
        cfgDomainBits := BitVec.ofNat 64 (partition s.domainSizeIn.toNat).domainBits
        cfgRounds := BitVec.ofNat 64 (4 * (partition s.domainSizeIn.toNat).domainBits)
        valueOut := 0
        fBit := false
        passCount := 0
        pending := none
        scratch := Scratch.cleared
        status :=
          { ready := true, busy := false, done := true, err := false, busywr := s.status.busywr,
            errCode := .noError }
        primOk := Config.primOk s.drawCount
        drawCount := s.drawCount + 1 }

/-- R113's errors: a CONFIG that ends in an error clears the secrets, the accessors, the results and KEYBUF, reports
the first error of R209 with its code of R200 and changes nothing else (but the model's own draw, log 4). -/
def Obligations.ConfigErrorsClearAndReport : Prop :=
  ErrorCode.domainSize.byte = 0x02 ∧ ErrorCode.primitive.byte = 0x03 ∧ ErrorCode.keyLen.byte = 0x06 ∧
  ∀ s : State,
    let destroyed (st : State) (code : ErrorCode) : State :=
      { st with
        skey := zeros Config.keyBytes
        rkey := zeros Config.keyBytes
        slotS := false
        slotR := false
        keybuf := Vector.replicate 8 0
        cfgDomainSize := 0
        cfgSourceBits := 0
        cfgTargetBits := 0
        cfgDomainBits := 0
        cfgRounds := 0
        valueOut := 0
        fBit := false
        passCount := 0
        pending := none
        scratch := Scratch.cleared
        status :=
          { ready := false, busy := false, done := true, err := true, busywr := s.status.busywr, errCode := code } }
    (s.domainSizeIn.toNat = 0 ∨ 2 ^ 63 < s.domainSizeIn.toNat →
      exec .config s = .next (destroyed s .domainSize)) ∧
    (1 ≤ s.domainSizeIn.toNat → s.domainSizeIn.toNat ≤ 2 ^ 63 → 64 < s.keyLen.toNat →
      exec .config s = .next (destroyed s .keyLen)) ∧
    (1 ≤ s.domainSizeIn.toNat → s.domainSizeIn.toNat ≤ 2 ^ 63 → s.keyLen.toNat ≤ 64 → s.primOk = false →
      exec .config s = .next
        (destroyed { s with primOk := Config.primOk s.drawCount, drawCount := s.drawCount + 1 } .primitive))

/-- R114: a CONFIG that fails leaves the block not constructed, with no key, old or new, and KEYBUF cleared. -/
def Obligations.FailedConfigLeavesNothingUsable : Prop :=
  ∀ s t : State, exec .config s = .next t → t.status.err = true →
    t.status.ready = false ∧ t.Unconstructed ∧ t.keybuf = Vector.replicate 8 0

/-- R248 (marked [derived: from rule R113] by the spec): CONFIG keeps KEY_LEN and clears KEYBUF, so the raw key that a
second CONFIG would use is L zero bytes. -/
def Obligations.SecondConfigWouldUseZeroBytes : Prop :=
  ∀ s t : State, exec .config s = .next t →
    t.keyLen = s.keyLen ∧ t.rawKey = List.replicate (min s.keyLen.toNat 64) 0

/-- R150: on a constructed block, a value in the domain encrypts to the result of the encrypt walk; VALUE_OUT and
PASS_COUNT hold it without loss, and nothing else changes. -/
def Obligations.EncryptCompletesWithItsWalk : Prop :=
  ∀ s : State, s.status.ready = true → s.CfgLatched → s.valueIn.toNat < s.cfgDomainSize.toNat →
    let n := s.cfgDomainSize.toNat
    let db := (partition n).domainBits
    ∃ c p, encWalk s.roundBit n (db - 1) db s.valueIn.toNat = some (c, p) ∧
      exec .encrypt s = .next
        { s with
          valueOut := BitVec.ofNat 64 c
          passCount := BitVec.ofNat 64 p
          pending := none
          scratch := Scratch.cleared
          status := { s.status with busy := false, done := true, err := false, errCode := .noError } } ∧
      (BitVec.ofNat 64 c).toNat = c ∧ (BitVec.ofNat 64 p).toNat = p

/-- R151: the same for DECRYPT and the decrypt walk. -/
def Obligations.DecryptCompletesWithItsWalk : Prop :=
  ∀ s : State, s.status.ready = true → s.CfgLatched → s.valueIn.toNat < s.cfgDomainSize.toNat →
    let n := s.cfgDomainSize.toNat
    let db := (partition n).domainBits
    ∃ c p, decWalk s.roundBit n (db - 1) db s.valueIn.toNat = some (c, p) ∧
      exec .decrypt s = .next
        { s with
          valueOut := BitVec.ofNat 64 c
          passCount := BitVec.ofNat 64 p
          pending := none
          scratch := Scratch.cleared
          status := { s.status with busy := false, done := true, err := false, errCode := .noError } } ∧
      (BitVec.ofNat 64 c).toNat = c ∧ (BitVec.ofNat 64 p).toNat = p

/-- R150's corner case, V31: on a block constructed for N = 1, for any primitives, ENCRYPT and DECRYPT of 0 give 0 in one
pass; the accessors read sb = -1 and no rounds (C1, D3). -/
def Obligations.OneElementDomainMapsZeroToZero : Prop :=
  ∀ (i : Instr) (s : State), i = .encrypt ∨ i = .decrypt → s.status.ready = true → s.CfgLatched →
    s.cfgDomainSize = 1 → s.valueIn = 0 →
    s.cfgSourceBits = 0xFFFFFFFFFFFFFFFF ∧ s.cfgDomainBits = 0 ∧ s.cfgRounds = 0 ∧
    exec i s = .next
      { s with
        valueOut := 0
        passCount := 1
        pending := none
        scratch := Scratch.cleared
        status := { s.status with busy := false, done := true, err := false, errCode := .noError } }

/-- R201: on a constructed block, ENCRYPT and DECRYPT of a value outside the domain end with DOMAIN_VALUE; VALUE_OUT
and PASS_COUNT and everything but STATUS (with PENDING and the scratch) are unchanged. -/
def Obligations.OutOfDomainValuesAreRejected : Prop :=
  ErrorCode.domainValue.byte = 0x01 ∧
  ∀ (i : Instr) (s : State), i = .encrypt ∨ i = .decrypt → s.status.ready = true →
    s.cfgDomainSize.toNat ≤ s.valueIn.toNat →
    exec i s = .next
      { s with
        pending := none
        scratch := Scratch.cleared
        status := { s.status with busy := false, done := true, err := true, errCode := .domainValue } }

/-- R204: ENCRYPT, DECRYPT and FEVAL end with NOT_READY while the block is not constructed; nothing else changes. -/
def Obligations.CommandsBeforeConstructionAreNotReady : Prop :=
  ErrorCode.notReady.byte = 0x04 ∧
  ∀ (i : Instr) (s : State), i = .encrypt ∨ i = .decrypt ∨ i = .feval → s.status.ready = false →
    exec i s = .next
      { s with
        pending := none
        scratch := Scratch.cleared
        status := { s.status with busy := false, done := true, err := true, errCode := .notReady } }

/-- R110, R115: on a constructed block FEVAL puts f(F_SOURCE, F_ROUND) in F_BIT, for every 64-bit source and round, and
changes nothing else: bit 0 of byte 0 of BlockEncrypt(SKEY, encode_le(F_SOURCE) XOR BlockEncrypt(RKEY,
encode_le(F_ROUND))). F_BIT then reads as that bit with zeros above it (R35). -/
def Obligations.FevalCompletesWithTheRoundBit : Prop :=
  ∀ s : State, s.status.ready = true →
    let roundCipher := Config.hardware.blockEncrypt s.rkey (encodeLe Config.blockBytes s.fRound.toNat)
    let masked := xorBlocks (encodeLe Config.blockBytes s.fSource.toNat) roundCipher
    let b := (Config.encryptByte s.skey masked 0).getLsbD 0
    let t : State :=
      { s with
        fBit := b
        pending := none
        scratch := Scratch.cleared
        status := { s.status with busy := false, done := true, err := false, errCode := .noError } }
    exec .feval s = .next t ∧ (t.memRead 0x070 8).data.toNat = b.toNat

/-- R182, R183: ZEROIZE always succeeds, clears every data register, the keys, the slots and KEYBUF, sets READY to 0,
and keeps CTRL and BUSYWR; STATUS then reads 0x4 (0x14 with BUSYWR), an ENCRYPT ends with NOT_READY, and a second
ZEROIZE changes nothing. -/
def Obligations.ZeroizeClearsEverything : Prop :=
  ∀ s : State,
    let t : State :=
      { s with
        skey := zeros Config.keyBytes
        rkey := zeros Config.keyBytes
        slotS := false
        slotR := false
        keybuf := Vector.replicate 8 0
        keyLen := 0
        domainSizeIn := 0
        valueIn := 0
        fSource := 0
        fRound := 0
        cfgDomainSize := 0
        cfgSourceBits := 0
        cfgTargetBits := 0
        cfgDomainBits := 0
        cfgRounds := 0
        valueOut := 0
        fBit := false
        passCount := 0
        pending := none
        scratch := Scratch.cleared
        status :=
          { ready := false, busy := false, done := true, err := false, busywr := s.status.busywr,
            errCode := .noError } }
    exec .zeroize s = .next t ∧ t.status.word = (if s.status.busywr then 0x14 else 0x04) ∧
    (∃ u, exec .encrypt t = .next u ∧ u.status.errCode = .notReady) ∧ exec .zeroize t = .next t

/-- After ZEROIZE nothing of the block's past is left but CTRL and BUSYWR: from two states that agree in these and in
what the environment holds, ZEROIZE gives one and the same state (R182). -/
def Obligations.ZeroizeErasesAllTraces : Prop :=
  ∀ s t : State, s.ctrlIE = t.ctrlIE → s.status.busywr = t.status.busywr → s.schedule = t.schedule →
    s.busReply = t.busReply → s.primOk = t.primOk → s.drawCount = t.drawCount →
    exec .zeroize s = exec .zeroize t

/-- R209: which error each command reports, first in the order of R209, for every state in which it completes. -/
def Obligations.FirstErrorInPriorityOrderIsReported : Prop :=
  ∀ s t : State,
    (∀ w, s.pending = some w → CmdWord.wellFormed w = false → engineStep s = .next t →
      t.status.errCode = .illegalCmd) ∧
    (∀ i, i = .encrypt ∨ i = .decrypt → exec i s = .next t →
      t.status.errCode =
        if s.status.ready = false then .notReady
        else if s.cfgDomainSize.toNat ≤ s.valueIn.toNat then .domainValue else .noError) ∧
    (exec .feval s = .next t → t.status.errCode = if s.status.ready = false then .notReady else .noError) ∧
    (exec .config s = .next t →
      t.status.errCode =
        if s.domainSizeIn.toNat = 0 ∨ 2 ^ 63 < s.domainSizeIn.toNat then .domainSize
        else if 64 < s.keyLen.toNat then .keyLen
        else if s.primOk = false then .primitive else .noError) ∧
    (exec .zeroize s = .next t → t.status.errCode = .noError)

/-- R184, R211, R212 for every command, every illegal word and every state: a completion leaves the scratch cleared,
BUSY = 0, DONE = 1, PENDING none, ERR = 1 exactly with a code, and BUSYWR, CTRL and what the environment sends as they
were; no command is refused. The scratch as a field, the schedule and the reply are the model's own (log 9, 2, 3). -/
def Obligations.EveryCompletionEndsTheCommand : Prop :=
  let ended (s t : State) : Prop :=
    t.scratch = Scratch.cleared ∧ t.status.busy = false ∧ t.status.done = true ∧ t.pending = none ∧
    (t.status.err = true ↔ t.status.errCode ≠ .noError) ∧
    t.status.busywr = s.status.busywr ∧ t.ctrlIE = s.ctrlIE ∧ t.schedule = s.schedule ∧ t.busReply = s.busReply
  (∀ (i : Instr) (s t : State), exec i s = .next t → ended s t) ∧
  (∀ (s t : State) (w : CmdWord), s.pending = some w → engineStep s = .next t → ended s t) ∧
  ∀ (i : Instr) (s : State) (r : Refusal), exec i s ≠ .refused r

/-- R181: the lifecycle transitions, every row of the table. -/
def Obligations.LifecycleTransitions : Prop :=
  (∀ s : State, s.applyReset.status.ready = false) ∧
  (∀ s t : State, exec .config s = .next t → t.status.ready = !t.status.err) ∧
  (∀ s t : State, exec .zeroize s = .next t → t.status.ready = false) ∧
  (∀ (i : Instr) (s t : State), i = .encrypt ∨ i = .decrypt ∨ i = .feval → exec i s = .next t →
    t.status.ready = s.status.ready ∧ t.skey = s.skey ∧ t.rkey = s.rkey ∧ t.cfgDomainSize = s.cfgDomainSize ∧
    t.cfgSourceBits = s.cfgSourceBits ∧ t.cfgTargetBits = s.cfgTargetBits ∧ t.cfgDomainBits = s.cfgDomainBits ∧
    t.cfgRounds = s.cfgRounds ∧
    (s.status.ready = true → t.status.errCode = .noError ∨ t.status.errCode = .domainValue) ∧
    (s.status.ready = false → t.status.errCode = .notReady)) ∧
  ∀ (s t : State) (w : CmdWord), s.pending = some w → CmdWord.wellFormed w = false → engineStep s = .next t →
    t.status.ready = s.status.ready ∧ t.status.errCode = .illegalCmd

/-- Encrypting and then decrypting the result on a constructed block gives the value back, with the same pass count
(R151, and R149, which the spec marks [derived: from rules R145 to R148]). -/
def Obligations.DecryptCommandUndoesEncryptCommand : Prop :=
  ∀ s : State, s.status.ready = true → s.CfgLatched → s.valueIn.toNat < s.cfgDomainSize.toNat →
    ∃ t u : State, exec .encrypt s = .next t ∧ exec .decrypt { t with valueIn := t.valueOut } = .next u ∧
      t.valueOut.toNat < s.cfgDomainSize.toNat ∧ u.valueOut = s.valueIn ∧ u.passCount = t.passCount

/-! ### Steps and turns -/

/-- When the engine's turn comes, or no turn is left, a step is the engine's step: a pending legal word runs as its command
(for an illegal one see IllegalWordCompletesWithIllegalCmd), and with nothing pending the block is idle (R211, R228); a placed word runs at the very next step; a host turn is one bus access and the reset turn
is the reset (R71, R219). -/
def Obligations.StepTakesTheNextTurnAndRunsTheDecodedCommand : Prop :=
  ∀ (s : State) (i : Instr),
    (∀ w, s.pending = some w → decode w = .ok i →
      (s.schedule = [] → step s = exec i s) ∧
      ∀ rest, s.schedule = .engine :: rest → step s = exec i { s with schedule := rest }) ∧
    (s.schedule = [] → step s = engineStep s) ∧
    (∀ rest, s.schedule = .engine :: rest → step s = engineStep { s with schedule := rest }) ∧
    (s.pending = none → engineStep s = .next s ∧
      (s.schedule = [] → step s = .next s) ∧
      ∀ rest, s.schedule = .engine :: rest → step s = .next { s with schedule := rest }) ∧
    step (s.withFetchWord 32 (encode i).toNat) = exec i (s.accept (encode i)) ∧
    ∀ (a : Access) (rest : List Turn),
      (s.schedule = .host a :: rest → step s = hostAccess a { s with schedule := rest }) ∧
      (s.schedule = .reset :: rest → step s = .next ({ s with schedule := rest } : State).applyReset)

/-- R50, R240, R242: from any state, with a command pending or not, reset gives the reset values, sets no DONE and no ERR,
and clears BUSYWR and the keys. STATUS, CTRL and every data register then read 0, and irq is 0. -/
def Obligations.ResetGivesTheResetValues : Prop :=
  ∀ s : State,
    let t := s.applyReset
    t.status.word = 0 ∧ t.ctrlIE = false ∧ t.irq = false ∧
    t.domainSizeIn = 0 ∧ t.keyLen = 0 ∧ t.valueIn = 0 ∧ t.fSource = 0 ∧ t.fRound = 0 ∧
    t.keybuf = Vector.replicate 8 0 ∧ t.Unconstructed ∧ t.pending = none ∧ t.scratch = Scratch.cleared ∧
    ∀ r : Reg, r ≠ .id → r ≠ .params → t.readReg r = 0

/-! ### Host accesses -/

/-- R61, R62: an access that is not 4 or 8 bytes, naturally aligned and inside the window gets a bus error, reads as 0
and changes nothing, and stops the model's run; every other access is answered. -/
def Obligations.OnlyLegalAccessesAreAnswered : Prop :=
  ∀ (s : State) (offset size : Nat) (data : Word),
    (¬ ((size = 4 ∨ size = 8) ∧ offset % size = 0 ∧ offset + size ≤ 0x200) →
      s.memRead offset size = .busError ∧ (s.memRead offset size).data = 0 ∧
      s.memWrite offset size data = (.busError, s) ∧
      hostAccess (.read offset size) s = .fault (.busError offset size) ∧
      hostAccess (.write offset size data) s = .fault (.busError offset size)) ∧
    ((size = 4 ∨ size = 8) ∧ offset % size = 0 ∧ offset + size ≤ 0x200 →
      (∃ w, s.memRead offset size = .readData w) ∧ (s.memWrite offset size data).1 = .writeDone ∧
      (∃ t, hostAccess (.read offset size) s = .next t) ∧ ∃ t, hostAccess (.write offset size data) s = .next t)

/-- R20, R21, R24: the register map. The eight bytes from a register's offset, and no others, are that register's; of
CMD they are the four bytes 0x000 to 0x003. -/
def Obligations.RegistersOccupyTheirOffsets : Prop :=
  (∀ offset : Nat, regAt offset = some .cmd ↔ offset < 4) ∧
  ∀ (r : Reg) (offset : Nat), r ≠ .cmd → (regAt offset = some r ↔ r.offset ≤ offset ∧ offset < r.offset + 8)

/-- R64: byte i of a register at offset o is the byte at o + i and holds bits [8i+7:8i]; a read returns the bytes of
its offsets in order. An 8-byte read of an operand, result or accessor register gives what the register holds (R29 to
R32, R34 to R41). That a 4-byte read is held with zeros above it is the model's choice (log 3). -/
def Obligations.ReadsReturnLittleEndianBytes : Prop :=
  (∀ (s : State) (r : Reg) (i : Nat), i < 8 →
    s.windowByte (r.offset + i) = (s.readReg r).extractLsb' (8 * i) 8) ∧
  (∀ (s : State) (offset size i : Nat), legalAccess offset size = true → i < 8 →
    (s.memRead offset size).data.extractLsb' (8 * i) 8 = if i < size then s.windowByte (offset + i) else 0) ∧
  ∀ s : State,
    (s.memRead 0x040 8).data = s.domainSizeIn ∧
    (s.memRead 0x048 8).data.toNat = s.keyLen.toNat ∧
    (s.memRead 0x050 8).data = s.valueIn ∧
    (s.memRead 0x058 8).data = s.valueOut ∧
    (s.memRead 0x060 8).data = s.fSource ∧
    (s.memRead 0x068 8).data = s.fRound ∧
    (s.memRead 0x070 8).data.toNat = s.fBit.toNat ∧
    (s.memRead 0x078 8).data = s.passCount ∧
    (s.memRead 0x080 8).data = s.cfgDomainSize ∧
    (s.memRead 0x088 8).data = s.cfgSourceBits ∧
    (s.memRead 0x090 8).data = s.cfgTargetBits ∧
    (s.memRead 0x098 8).data = s.cfgDomainBits ∧
    (s.memRead 0x0A0 8).data = s.cfgRounds

/-- R25: STATUS reads as its fields at their bits, and every reserved bit reads 0. -/
def Obligations.StatusReadsAsItsFields : Prop :=
  ∀ s : State,
    (s.memRead 0x008 8).data.toNat =
      s.status.ready.toNat + 2 * s.status.busy.toNat + 4 * s.status.done.toNat + 8 * s.status.err.toNat +
        16 * s.status.busywr.toNat + 256 * s.status.errCode.byte.toNat

/-- R27, R28: ID is its constant, the fields of PARAMS are 63, K, BB, B and 64 without loss, no write changes either, and
with K = 16, BB = 16 and B = 32 PARAMS is 0x0000_0040_2010_103F. -/
def Obligations.IdAndParamsAreConstants : Prop :=
  ∀ s : State,
    (s.memRead 0x018 8).data = 0x0000000131455046 ∧
    (s.memRead 0x020 8).data.toNat =
      63 + 2 ^ 8 * Config.keyBytes + 2 ^ 16 * Config.blockBytes + 2 ^ 24 * Config.digestBytes + 2 ^ 32 * 64 ∧
    (∀ (offset size : Nat) (data : Word), 0x018 ≤ offset → offset < 0x028 → (s.memWrite offset size data).2 = s) ∧
    ∀ p : Primitives, p.keyBytes = 16 → p.blockBytes = 16 → p.digestBytes = 32 → paramsWord p = 0x000000402010103F

/-- R21, R43, R67: a write that reaches a reserved offset or a read-only register changes nothing, also while BUSY = 1,
and a reserved offset, CMD and KEY0 to KEY7 read 0. -/
def Obligations.ReservedReadOnlyAndWriteOnlySpace : Prop :=
  ∀ (s : State) (offset size : Nat) (data : Word), legalAccess offset size = true →
    (((0x004 ≤ offset ∧ offset < 0x008) ∨ (0x028 ≤ offset ∧ offset < 0x040) ∨ (0x0A8 ≤ offset ∧ offset < 0x100) ∨
        (0x140 ≤ offset ∧ offset < 0x200)) →
      s.memRead offset size = .readData 0 ∧ (s.memWrite offset size data).2 = s) ∧
    (((0x018 ≤ offset ∧ offset < 0x028) ∨ (0x058 ≤ offset ∧ offset < 0x060) ∨ (0x070 ≤ offset ∧ offset < 0x0A8)) →
      (s.memWrite offset size data).2 = s) ∧
    ((offset < 0x008 ∨ (0x100 ≤ offset ∧ offset < 0x140)) → s.memRead offset size = .readData 0)

/-- R66: a read changes nothing but the reply, and repeating it gives the same reply; repeating a write to an operand
register changes nothing more. -/
def Obligations.ReadsAndOperandWritesAreIdempotent : Prop :=
  (∀ (s t : State) (offset size : Nat), hostAccess (.read offset size) s = .next t →
    t = { s with busReply := some (s.memRead offset size) } ∧ t.memRead offset size = s.memRead offset size) ∧
  ∀ (s : State) (r : Reg) (offset size : Nat) (data : Word), r.isOperand = true → regAt offset = some r →
    ((s.memWrite offset size data).2.memWrite offset size data).2 = (s.memWrite offset size data).2

/-- R63, R67: a write to an operand register while BUSY = 0 changes exactly the bits it reaches (KEY_LEN keeps bits 7:0
only, R30), and nothing else. -/
def Obligations.OperandWritesChangeTheBitsTheyReach : Prop :=
  ∀ (s : State) (r : Reg) (offset size : Nat) (data : Word),
    s.status.busy = false → r.isOperand = true → legalAccess offset size = true →
    r.offset ≤ offset → offset < r.offset + 8 →
    let t := (s.memWrite offset size data).2
    let shift := 8 * (offset - r.offset)
    (∀ b, b < 64 → (t.operandHeld r).getLsbD b =
      if r = .keyLen ∧ 8 ≤ b then false
      else if shift ≤ b ∧ b < shift + 8 * size then data.getLsbD (b - shift) else (s.operandHeld r).getLsbD b) ∧
    (∀ q, q ≠ r → t.operandHeld q = s.operandHeld q) ∧
    { t with
      domainSizeIn := s.domainSizeIn, keyLen := s.keyLen, valueIn := s.valueIn, fSource := s.fSource,
      fRound := s.fRound, keybuf := s.keybuf } = s

/-- R67, R208, R246: while BUSY = 1 any write to an operand register or to CMD is dropped and sets BUSYWR, and nothing
else changes; so does one to the upper half of KEY_LEN, where R43 could be read otherwise (log 8). -/
def Obligations.WritesWhileBusyAreDropped : Prop :=
  ∀ (s : State) (r : Reg) (offset size : Nat) (data : Word),
    s.status.busy = true → legalAccess offset size = true → regAt offset = some r →
    (r.isOperand = true ∨ r = .cmd) →
    (s.memWrite offset size data).2 = { s with status := { s.status with busywr := true } }

/-- R210: a write to CMD while BUSY = 0 makes its low 32 bits the pending command, with BUSY = 1, DONE = 0, ERR = 0 and
ERR_CODE = 0x00, and changes nothing else; bits 63:32 of an 8-byte write are ignored (R85). -/
def Obligations.CommandWordsAreAccepted : Prop :=
  ∀ (s : State) (size : Nat) (data : Word), s.status.busy = false → size = 4 ∨ size = 8 →
    (s.memWrite 0x000 size data).2 =
      { s with
        pending := some (data.extractLsb' 0 32)
        status := { s.status with busy := true, done := false, err := false, errCode := .noError } }

/-- R25, R67: a write to STATUS clears DONE where bit 2 is 1 and BUSYWR where bit 4 is 1, also while BUSY = 1, and
changes nothing else; a write to its upper half changes nothing. -/
def Obligations.StatusWritesClearDoneAndBusywr : Prop :=
  ∀ (s : State) (size : Nat) (data : Word),
    (size = 4 ∨ size = 8 →
      (s.memWrite 0x008 size data).2 =
        { s with
          status :=
            { s.status with
              done := s.status.done && !data.getLsbD 2, busywr := s.status.busywr && !data.getLsbD 4 } }) ∧
    (s.memWrite 0x00C 4 data).2 = s

/-- R26: a write to CTRL stores bit 0 in IE, also while BUSY = 1; a write to its upper half changes nothing; CTRL
reads as IE with zeros above it; no command changes it; reset clears it; and every step whose turn (log 2) is neither a
reset nor a write at 0x010 keeps it. -/
def Obligations.CtrlChangesByWritesAndResetOnly : Prop :=
  (∀ (s : State) (size : Nat) (data : Word),
    (size = 4 ∨ size = 8 → (s.memWrite 0x010 size data).2 = { s with ctrlIE := data.getLsbD 0 }) ∧
    (s.memWrite 0x014 4 data).2 = s ∧ (s.memRead 0x010 8).data.toNat = s.ctrlIE.toNat) ∧
  (∀ (i : Instr) (s t : State), exec i s = .next t → t.ctrlIE = s.ctrlIE) ∧
  (∀ s : State, s.applyReset.ctrlIE = false) ∧
  ∀ s t : State, step s = .next t → (∀ rest, s.schedule ≠ .reset :: rest) →
    (∀ size data rest, s.schedule ≠ .host (.write 0x010 size data) :: rest) → t.ctrlIE = s.ctrlIE

/-- R217: irq is the level CTRL.IE & STATUS.DONE. Any completion sets DONE, and irq with it if IE = 1; irq falls at an
acceptance, at a W1C of DONE and at reset, and follows DONE at once when IE is written to 1. -/
def Obligations.IrqIsALevelOfIeAndDone : Prop :=
  ∀ s : State,
    (s.irq = true ↔ s.ctrlIE = true ∧ s.status.done = true) ∧
    (∀ (i : Instr) (t : State), exec i s = .next t → t.status.done = true ∧ t.irq = s.ctrlIE) ∧
    (∀ (w : CmdWord) (t : State), s.pending = some w → engineStep s = .next t →
      t.status.done = true ∧ t.irq = s.ctrlIE) ∧
    (∀ (size : Nat) (data : Word), size = 4 ∨ size = 8 →
      (s.status.busy = false → (s.memWrite 0x000 size data).2.irq = false) ∧
      (data.getLsbD 2 = true → (s.memWrite 0x008 size data).2.irq = false)) ∧
    (s.memWrite 0x010 8 1).2.irq = s.status.done ∧ (s.memWrite 0x010 8 0).2.irq = false ∧
    s.applyReset.irq = false

/-- R22, R245: no host access changes a result register, an accessor, a key, a slot or READY. -/
def Obligations.HostAccessesNeverTouchResults : Prop :=
  ∀ (a : Access) (s t : State), hostAccess a s = .next t →
    t.status.ready = s.status.ready ∧ t.valueOut = s.valueOut ∧ t.fBit = s.fBit ∧ t.passCount = s.passCount ∧
    t.cfgDomainSize = s.cfgDomainSize ∧ t.cfgSourceBits = s.cfgSourceBits ∧ t.cfgTargetBits = s.cfgTargetBits ∧
    t.cfgDomainBits = s.cfgDomainBits ∧ t.cfgRounds = s.cfgRounds ∧ t.skey = s.skey ∧ t.rkey = s.rkey ∧
    t.slotS = s.slotS ∧ t.slotR = s.slotR

/-! ### Whole-machine rules -/

/-- The state right after reset meets the invariant. -/
def Obligations.ResetStateMeetsTheInvariant : Prop := State.reset.Inv

/-- Every step keeps the invariant: STATUS stays a legal combination, BUSY = 1 exactly while a command is pending, the
block is either clear or consistently constructed, results stay in range, the scratch stays clear (R25, R42, R46,
R48, R180). -/
def Obligations.EveryStepKeepsTheInvariant : Prop := ∀ s t : State, s.Inv → step s = .next t → t.Inv

/-- In a state that meets the invariant only a bus error stops the machine: in particular a cycle walk always ends
(R62, R148). -/
def Obligations.OnlyBusErrorsStopTheBlock : Prop :=
  ∀ s : State, s.Inv →
    (∃ t, step s = .next t) ∨ ∃ offset size, step s = .fault (.busError offset size) ∧
      legalAccess offset size = false

/-- Every run of legal host accesses ends (R75, R249): after one step for each turn and one more, no access is left
and BUSY = 0. That the engine moves when no turn is left is the model's fairness (log 2). -/
def Obligations.EveryRunOfLegalAccessesEnds : Prop :=
  ∀ s : State, s.Inv → s.AccessesLegal →
    ∃ t : State, Sys2Proof.core.run (s.schedule.length + 1) s = .next t ∧ t.runOver = true ∧ t.pending = none

/-- R185: a host access or a reset shows nothing of the keys, the key buffer or the scratch: from two states that
differ only in these, it gives the same reply and again two states that differ only in these. -/
def Obligations.HostAccessesShowNoSecret : Prop :=
  ∀ (s t s' : State), s.SameButSecrets t → (∀ rest, s.schedule ≠ .engine :: rest) → s.schedule ≠ [] →
    step s = .next s' → ∃ t', step t = .next t' ∧ s'.SameButSecrets t'

/-- R185: the only host-visible functions of the keys are VALUE_OUT, F_BIT and PASS_COUNT: a command run in two states
that differ only in secrets, with the same draw, gives states that differ only in secrets and these three. -/
def Obligations.CommandsShowKeysOnlyInResults : Prop :=
  ∀ (i : Instr) (s t s' t' : State), s.SameButSecrets t → s.primOk = t.primOk →
    exec i s = .next s' → exec i t = .next t' →
    State.SameButSecrets { s' with valueOut := 0, fBit := false, passCount := 0 }
      { t' with valueOut := 0, fBit := false, passCount := 0 }
end

