-- ==== Sys2Proof/Laws/State.lean ====
section
/-! SUPPORT. One lemma per field per update of the state, each true by unfolding once; so that no later proof unfolds a
record update. -/

namespace Sys2Proof.Machine

variable (s : State) (st : Status)

@[simp] theorem State.accept_status (w : CmdWord) : (s.accept w).status = s.status.accepted := rfl
@[simp] theorem State.accept_ctrlIE (w : CmdWord) : (s.accept w).ctrlIE = s.ctrlIE := rfl
@[simp] theorem State.accept_domainSizeIn (w : CmdWord) : (s.accept w).domainSizeIn = s.domainSizeIn := rfl
@[simp] theorem State.accept_keyLen (w : CmdWord) : (s.accept w).keyLen = s.keyLen := rfl
@[simp] theorem State.accept_valueIn (w : CmdWord) : (s.accept w).valueIn = s.valueIn := rfl
@[simp] theorem State.accept_fSource (w : CmdWord) : (s.accept w).fSource = s.fSource := rfl
@[simp] theorem State.accept_fRound (w : CmdWord) : (s.accept w).fRound = s.fRound := rfl
@[simp] theorem State.accept_keybuf (w : CmdWord) : (s.accept w).keybuf = s.keybuf := rfl
@[simp] theorem State.accept_valueOut (w : CmdWord) : (s.accept w).valueOut = s.valueOut := rfl
@[simp] theorem State.accept_fBit (w : CmdWord) : (s.accept w).fBit = s.fBit := rfl
@[simp] theorem State.accept_passCount (w : CmdWord) : (s.accept w).passCount = s.passCount := rfl
@[simp] theorem State.accept_cfgDomainSize (w : CmdWord) : (s.accept w).cfgDomainSize = s.cfgDomainSize := rfl
@[simp] theorem State.accept_cfgSourceBits (w : CmdWord) : (s.accept w).cfgSourceBits = s.cfgSourceBits := rfl
@[simp] theorem State.accept_cfgTargetBits (w : CmdWord) : (s.accept w).cfgTargetBits = s.cfgTargetBits := rfl
@[simp] theorem State.accept_cfgDomainBits (w : CmdWord) : (s.accept w).cfgDomainBits = s.cfgDomainBits := rfl
@[simp] theorem State.accept_cfgRounds (w : CmdWord) : (s.accept w).cfgRounds = s.cfgRounds := rfl
@[simp] theorem State.accept_skey (w : CmdWord) : (s.accept w).skey = s.skey := rfl
@[simp] theorem State.accept_rkey (w : CmdWord) : (s.accept w).rkey = s.rkey := rfl
@[simp] theorem State.accept_slotS (w : CmdWord) : (s.accept w).slotS = s.slotS := rfl
@[simp] theorem State.accept_slotR (w : CmdWord) : (s.accept w).slotR = s.slotR := rfl
@[simp] theorem State.accept_pending (w : CmdWord) : (s.accept w).pending = some w := rfl
@[simp] theorem State.accept_scratch (w : CmdWord) : (s.accept w).scratch = s.scratch := rfl
@[simp] theorem State.accept_schedule (w : CmdWord) : (s.accept w).schedule = s.schedule := rfl
@[simp] theorem State.accept_busReply (w : CmdWord) : (s.accept w).busReply = s.busReply := rfl
@[simp] theorem State.accept_primOk (w : CmdWord) : (s.accept w).primOk = s.primOk := rfl
@[simp] theorem State.accept_drawCount (w : CmdWord) : (s.accept w).drawCount = s.drawCount := rfl

@[simp] theorem State.completeOk_status : s.completeOk.status = s.status.completedOk := rfl
@[simp] theorem State.completeOk_ctrlIE : s.completeOk.ctrlIE = s.ctrlIE := rfl
@[simp] theorem State.completeOk_domainSizeIn : s.completeOk.domainSizeIn = s.domainSizeIn := rfl
@[simp] theorem State.completeOk_keyLen : s.completeOk.keyLen = s.keyLen := rfl
@[simp] theorem State.completeOk_valueIn : s.completeOk.valueIn = s.valueIn := rfl
@[simp] theorem State.completeOk_fSource : s.completeOk.fSource = s.fSource := rfl
@[simp] theorem State.completeOk_fRound : s.completeOk.fRound = s.fRound := rfl
@[simp] theorem State.completeOk_keybuf : s.completeOk.keybuf = s.keybuf := rfl
@[simp] theorem State.completeOk_valueOut : s.completeOk.valueOut = s.valueOut := rfl
@[simp] theorem State.completeOk_fBit : s.completeOk.fBit = s.fBit := rfl
@[simp] theorem State.completeOk_passCount : s.completeOk.passCount = s.passCount := rfl
@[simp] theorem State.completeOk_cfgDomainSize : s.completeOk.cfgDomainSize = s.cfgDomainSize := rfl
@[simp] theorem State.completeOk_cfgSourceBits : s.completeOk.cfgSourceBits = s.cfgSourceBits := rfl
@[simp] theorem State.completeOk_cfgTargetBits : s.completeOk.cfgTargetBits = s.cfgTargetBits := rfl
@[simp] theorem State.completeOk_cfgDomainBits : s.completeOk.cfgDomainBits = s.cfgDomainBits := rfl
@[simp] theorem State.completeOk_cfgRounds : s.completeOk.cfgRounds = s.cfgRounds := rfl
@[simp] theorem State.completeOk_skey : s.completeOk.skey = s.skey := rfl
@[simp] theorem State.completeOk_rkey : s.completeOk.rkey = s.rkey := rfl
@[simp] theorem State.completeOk_slotS : s.completeOk.slotS = s.slotS := rfl
@[simp] theorem State.completeOk_slotR : s.completeOk.slotR = s.slotR := rfl
@[simp] theorem State.completeOk_pending : s.completeOk.pending = none := rfl
@[simp] theorem State.completeOk_scratch : s.completeOk.scratch = Scratch.cleared := rfl
@[simp] theorem State.completeOk_schedule : s.completeOk.schedule = s.schedule := rfl
@[simp] theorem State.completeOk_busReply : s.completeOk.busReply = s.busReply := rfl
@[simp] theorem State.completeOk_primOk : s.completeOk.primOk = s.primOk := rfl
@[simp] theorem State.completeOk_drawCount : s.completeOk.drawCount = s.drawCount := rfl

@[simp] theorem State.completeErr_status (c : ErrorCode) : (s.completeErr c).status = s.status.completedErr c := rfl
@[simp] theorem State.completeErr_ctrlIE (c : ErrorCode) : (s.completeErr c).ctrlIE = s.ctrlIE := rfl
@[simp] theorem State.completeErr_domainSizeIn (c : ErrorCode) : (s.completeErr c).domainSizeIn = s.domainSizeIn := rfl
@[simp] theorem State.completeErr_keyLen (c : ErrorCode) : (s.completeErr c).keyLen = s.keyLen := rfl
@[simp] theorem State.completeErr_valueIn (c : ErrorCode) : (s.completeErr c).valueIn = s.valueIn := rfl
@[simp] theorem State.completeErr_fSource (c : ErrorCode) : (s.completeErr c).fSource = s.fSource := rfl
@[simp] theorem State.completeErr_fRound (c : ErrorCode) : (s.completeErr c).fRound = s.fRound := rfl
@[simp] theorem State.completeErr_keybuf (c : ErrorCode) : (s.completeErr c).keybuf = s.keybuf := rfl
@[simp] theorem State.completeErr_valueOut (c : ErrorCode) : (s.completeErr c).valueOut = s.valueOut := rfl
@[simp] theorem State.completeErr_fBit (c : ErrorCode) : (s.completeErr c).fBit = s.fBit := rfl
@[simp] theorem State.completeErr_passCount (c : ErrorCode) : (s.completeErr c).passCount = s.passCount := rfl
@[simp] theorem State.completeErr_cfgDomainSize (c : ErrorCode) : (s.completeErr c).cfgDomainSize = s.cfgDomainSize := rfl
@[simp] theorem State.completeErr_cfgSourceBits (c : ErrorCode) : (s.completeErr c).cfgSourceBits = s.cfgSourceBits := rfl
@[simp] theorem State.completeErr_cfgTargetBits (c : ErrorCode) : (s.completeErr c).cfgTargetBits = s.cfgTargetBits := rfl
@[simp] theorem State.completeErr_cfgDomainBits (c : ErrorCode) : (s.completeErr c).cfgDomainBits = s.cfgDomainBits := rfl
@[simp] theorem State.completeErr_cfgRounds (c : ErrorCode) : (s.completeErr c).cfgRounds = s.cfgRounds := rfl
@[simp] theorem State.completeErr_skey (c : ErrorCode) : (s.completeErr c).skey = s.skey := rfl
@[simp] theorem State.completeErr_rkey (c : ErrorCode) : (s.completeErr c).rkey = s.rkey := rfl
@[simp] theorem State.completeErr_slotS (c : ErrorCode) : (s.completeErr c).slotS = s.slotS := rfl
@[simp] theorem State.completeErr_slotR (c : ErrorCode) : (s.completeErr c).slotR = s.slotR := rfl
@[simp] theorem State.completeErr_pending (c : ErrorCode) : (s.completeErr c).pending = none := rfl
@[simp] theorem State.completeErr_scratch (c : ErrorCode) : (s.completeErr c).scratch = Scratch.cleared := rfl
@[simp] theorem State.completeErr_schedule (c : ErrorCode) : (s.completeErr c).schedule = s.schedule := rfl
@[simp] theorem State.completeErr_busReply (c : ErrorCode) : (s.completeErr c).busReply = s.busReply := rfl
@[simp] theorem State.completeErr_primOk (c : ErrorCode) : (s.completeErr c).primOk = s.primOk := rfl
@[simp] theorem State.completeErr_drawCount (c : ErrorCode) : (s.completeErr c).drawCount = s.drawCount := rfl

@[simp] theorem State.noteDroppedWrite_status : s.noteDroppedWrite.status = { s.status with busywr := true } := rfl
@[simp] theorem State.noteDroppedWrite_ctrlIE : s.noteDroppedWrite.ctrlIE = s.ctrlIE := rfl
@[simp] theorem State.noteDroppedWrite_domainSizeIn : s.noteDroppedWrite.domainSizeIn = s.domainSizeIn := rfl
@[simp] theorem State.noteDroppedWrite_keyLen : s.noteDroppedWrite.keyLen = s.keyLen := rfl
@[simp] theorem State.noteDroppedWrite_valueIn : s.noteDroppedWrite.valueIn = s.valueIn := rfl
@[simp] theorem State.noteDroppedWrite_fSource : s.noteDroppedWrite.fSource = s.fSource := rfl
@[simp] theorem State.noteDroppedWrite_fRound : s.noteDroppedWrite.fRound = s.fRound := rfl
@[simp] theorem State.noteDroppedWrite_keybuf : s.noteDroppedWrite.keybuf = s.keybuf := rfl
@[simp] theorem State.noteDroppedWrite_valueOut : s.noteDroppedWrite.valueOut = s.valueOut := rfl
@[simp] theorem State.noteDroppedWrite_fBit : s.noteDroppedWrite.fBit = s.fBit := rfl
@[simp] theorem State.noteDroppedWrite_passCount : s.noteDroppedWrite.passCount = s.passCount := rfl
@[simp] theorem State.noteDroppedWrite_cfgDomainSize : s.noteDroppedWrite.cfgDomainSize = s.cfgDomainSize := rfl
@[simp] theorem State.noteDroppedWrite_cfgSourceBits : s.noteDroppedWrite.cfgSourceBits = s.cfgSourceBits := rfl
@[simp] theorem State.noteDroppedWrite_cfgTargetBits : s.noteDroppedWrite.cfgTargetBits = s.cfgTargetBits := rfl
@[simp] theorem State.noteDroppedWrite_cfgDomainBits : s.noteDroppedWrite.cfgDomainBits = s.cfgDomainBits := rfl
@[simp] theorem State.noteDroppedWrite_cfgRounds : s.noteDroppedWrite.cfgRounds = s.cfgRounds := rfl
@[simp] theorem State.noteDroppedWrite_skey : s.noteDroppedWrite.skey = s.skey := rfl
@[simp] theorem State.noteDroppedWrite_rkey : s.noteDroppedWrite.rkey = s.rkey := rfl
@[simp] theorem State.noteDroppedWrite_slotS : s.noteDroppedWrite.slotS = s.slotS := rfl
@[simp] theorem State.noteDroppedWrite_slotR : s.noteDroppedWrite.slotR = s.slotR := rfl
@[simp] theorem State.noteDroppedWrite_pending : s.noteDroppedWrite.pending = s.pending := rfl
@[simp] theorem State.noteDroppedWrite_scratch : s.noteDroppedWrite.scratch = s.scratch := rfl
@[simp] theorem State.noteDroppedWrite_schedule : s.noteDroppedWrite.schedule = s.schedule := rfl
@[simp] theorem State.noteDroppedWrite_busReply : s.noteDroppedWrite.busReply = s.busReply := rfl
@[simp] theorem State.noteDroppedWrite_primOk : s.noteDroppedWrite.primOk = s.primOk := rfl
@[simp] theorem State.noteDroppedWrite_drawCount : s.noteDroppedWrite.drawCount = s.drawCount := rfl

@[simp] theorem State.clearKeybuf_status : s.clearKeybuf.status = s.status := rfl
@[simp] theorem State.clearKeybuf_ctrlIE : s.clearKeybuf.ctrlIE = s.ctrlIE := rfl
@[simp] theorem State.clearKeybuf_domainSizeIn : s.clearKeybuf.domainSizeIn = s.domainSizeIn := rfl
@[simp] theorem State.clearKeybuf_keyLen : s.clearKeybuf.keyLen = s.keyLen := rfl
@[simp] theorem State.clearKeybuf_valueIn : s.clearKeybuf.valueIn = s.valueIn := rfl
@[simp] theorem State.clearKeybuf_fSource : s.clearKeybuf.fSource = s.fSource := rfl
@[simp] theorem State.clearKeybuf_fRound : s.clearKeybuf.fRound = s.fRound := rfl
@[simp] theorem State.clearKeybuf_keybuf : s.clearKeybuf.keybuf = Vector.replicate 8 0 := rfl
@[simp] theorem State.clearKeybuf_valueOut : s.clearKeybuf.valueOut = s.valueOut := rfl
@[simp] theorem State.clearKeybuf_fBit : s.clearKeybuf.fBit = s.fBit := rfl
@[simp] theorem State.clearKeybuf_passCount : s.clearKeybuf.passCount = s.passCount := rfl
@[simp] theorem State.clearKeybuf_cfgDomainSize : s.clearKeybuf.cfgDomainSize = s.cfgDomainSize := rfl
@[simp] theorem State.clearKeybuf_cfgSourceBits : s.clearKeybuf.cfgSourceBits = s.cfgSourceBits := rfl
@[simp] theorem State.clearKeybuf_cfgTargetBits : s.clearKeybuf.cfgTargetBits = s.cfgTargetBits := rfl
@[simp] theorem State.clearKeybuf_cfgDomainBits : s.clearKeybuf.cfgDomainBits = s.cfgDomainBits := rfl
@[simp] theorem State.clearKeybuf_cfgRounds : s.clearKeybuf.cfgRounds = s.cfgRounds := rfl
@[simp] theorem State.clearKeybuf_skey : s.clearKeybuf.skey = s.skey := rfl
@[simp] theorem State.clearKeybuf_rkey : s.clearKeybuf.rkey = s.rkey := rfl
@[simp] theorem State.clearKeybuf_slotS : s.clearKeybuf.slotS = s.slotS := rfl
@[simp] theorem State.clearKeybuf_slotR : s.clearKeybuf.slotR = s.slotR := rfl
@[simp] theorem State.clearKeybuf_pending : s.clearKeybuf.pending = s.pending := rfl
@[simp] theorem State.clearKeybuf_scratch : s.clearKeybuf.scratch = s.scratch := rfl
@[simp] theorem State.clearKeybuf_schedule : s.clearKeybuf.schedule = s.schedule := rfl
@[simp] theorem State.clearKeybuf_busReply : s.clearKeybuf.busReply = s.busReply := rfl
@[simp] theorem State.clearKeybuf_primOk : s.clearKeybuf.primOk = s.primOk := rfl
@[simp] theorem State.clearKeybuf_drawCount : s.clearKeybuf.drawCount = s.drawCount := rfl

@[simp] theorem State.drawNext_status : s.drawNext.status = s.status := rfl
@[simp] theorem State.drawNext_ctrlIE : s.drawNext.ctrlIE = s.ctrlIE := rfl
@[simp] theorem State.drawNext_domainSizeIn : s.drawNext.domainSizeIn = s.domainSizeIn := rfl
@[simp] theorem State.drawNext_keyLen : s.drawNext.keyLen = s.keyLen := rfl
@[simp] theorem State.drawNext_valueIn : s.drawNext.valueIn = s.valueIn := rfl
@[simp] theorem State.drawNext_fSource : s.drawNext.fSource = s.fSource := rfl
@[simp] theorem State.drawNext_fRound : s.drawNext.fRound = s.fRound := rfl
@[simp] theorem State.drawNext_keybuf : s.drawNext.keybuf = s.keybuf := rfl
@[simp] theorem State.drawNext_valueOut : s.drawNext.valueOut = s.valueOut := rfl
@[simp] theorem State.drawNext_fBit : s.drawNext.fBit = s.fBit := rfl
@[simp] theorem State.drawNext_passCount : s.drawNext.passCount = s.passCount := rfl
@[simp] theorem State.drawNext_cfgDomainSize : s.drawNext.cfgDomainSize = s.cfgDomainSize := rfl
@[simp] theorem State.drawNext_cfgSourceBits : s.drawNext.cfgSourceBits = s.cfgSourceBits := rfl
@[simp] theorem State.drawNext_cfgTargetBits : s.drawNext.cfgTargetBits = s.cfgTargetBits := rfl
@[simp] theorem State.drawNext_cfgDomainBits : s.drawNext.cfgDomainBits = s.cfgDomainBits := rfl
@[simp] theorem State.drawNext_cfgRounds : s.drawNext.cfgRounds = s.cfgRounds := rfl
@[simp] theorem State.drawNext_skey : s.drawNext.skey = s.skey := rfl
@[simp] theorem State.drawNext_rkey : s.drawNext.rkey = s.rkey := rfl
@[simp] theorem State.drawNext_slotS : s.drawNext.slotS = s.slotS := rfl
@[simp] theorem State.drawNext_slotR : s.drawNext.slotR = s.slotR := rfl
@[simp] theorem State.drawNext_pending : s.drawNext.pending = s.pending := rfl
@[simp] theorem State.drawNext_scratch : s.drawNext.scratch = s.scratch := rfl
@[simp] theorem State.drawNext_schedule : s.drawNext.schedule = s.schedule := rfl
@[simp] theorem State.drawNext_busReply : s.drawNext.busReply = s.busReply := rfl
@[simp] theorem State.drawNext_primOk : s.drawNext.primOk = Config.primOk s.drawCount := rfl
@[simp] theorem State.drawNext_drawCount : s.drawNext.drawCount = s.drawCount + 1 := rfl

@[simp] theorem State.clearSecrets_status : s.clearSecrets.status = { s.status with ready := false } := rfl
@[simp] theorem State.clearSecrets_ctrlIE : s.clearSecrets.ctrlIE = s.ctrlIE := rfl
@[simp] theorem State.clearSecrets_domainSizeIn : s.clearSecrets.domainSizeIn = s.domainSizeIn := rfl
@[simp] theorem State.clearSecrets_keyLen : s.clearSecrets.keyLen = s.keyLen := rfl
@[simp] theorem State.clearSecrets_valueIn : s.clearSecrets.valueIn = s.valueIn := rfl
@[simp] theorem State.clearSecrets_fSource : s.clearSecrets.fSource = s.fSource := rfl
@[simp] theorem State.clearSecrets_fRound : s.clearSecrets.fRound = s.fRound := rfl
@[simp] theorem State.clearSecrets_keybuf : s.clearSecrets.keybuf = s.keybuf := rfl
@[simp] theorem State.clearSecrets_valueOut : s.clearSecrets.valueOut = 0 := rfl
@[simp] theorem State.clearSecrets_fBit : s.clearSecrets.fBit = false := rfl
@[simp] theorem State.clearSecrets_passCount : s.clearSecrets.passCount = 0 := rfl
@[simp] theorem State.clearSecrets_cfgDomainSize : s.clearSecrets.cfgDomainSize = 0 := rfl
@[simp] theorem State.clearSecrets_cfgSourceBits : s.clearSecrets.cfgSourceBits = 0 := rfl
@[simp] theorem State.clearSecrets_cfgTargetBits : s.clearSecrets.cfgTargetBits = 0 := rfl
@[simp] theorem State.clearSecrets_cfgDomainBits : s.clearSecrets.cfgDomainBits = 0 := rfl
@[simp] theorem State.clearSecrets_cfgRounds : s.clearSecrets.cfgRounds = 0 := rfl
@[simp] theorem State.clearSecrets_skey : s.clearSecrets.skey = zeros Config.keyBytes := rfl
@[simp] theorem State.clearSecrets_rkey : s.clearSecrets.rkey = zeros Config.keyBytes := rfl
@[simp] theorem State.clearSecrets_slotS : s.clearSecrets.slotS = false := rfl
@[simp] theorem State.clearSecrets_slotR : s.clearSecrets.slotR = false := rfl
@[simp] theorem State.clearSecrets_pending : s.clearSecrets.pending = s.pending := rfl
@[simp] theorem State.clearSecrets_scratch : s.clearSecrets.scratch = s.scratch := rfl
@[simp] theorem State.clearSecrets_schedule : s.clearSecrets.schedule = s.schedule := rfl
@[simp] theorem State.clearSecrets_busReply : s.clearSecrets.busReply = s.busReply := rfl
@[simp] theorem State.clearSecrets_primOk : s.clearSecrets.primOk = s.primOk := rfl
@[simp] theorem State.clearSecrets_drawCount : s.clearSecrets.drawCount = s.drawCount := rfl

@[simp] theorem State.construct_status (n : Word) (raw : List Byte) : (s.construct n raw).status = { s.status with ready := true } := rfl
@[simp] theorem State.construct_ctrlIE (n : Word) (raw : List Byte) : (s.construct n raw).ctrlIE = s.ctrlIE := rfl
@[simp] theorem State.construct_domainSizeIn (n : Word) (raw : List Byte) : (s.construct n raw).domainSizeIn = s.domainSizeIn := rfl
@[simp] theorem State.construct_keyLen (n : Word) (raw : List Byte) : (s.construct n raw).keyLen = s.keyLen := rfl
@[simp] theorem State.construct_valueIn (n : Word) (raw : List Byte) : (s.construct n raw).valueIn = s.valueIn := rfl
@[simp] theorem State.construct_fSource (n : Word) (raw : List Byte) : (s.construct n raw).fSource = s.fSource := rfl
@[simp] theorem State.construct_fRound (n : Word) (raw : List Byte) : (s.construct n raw).fRound = s.fRound := rfl
@[simp] theorem State.construct_keybuf (n : Word) (raw : List Byte) : (s.construct n raw).keybuf = s.keybuf := rfl
@[simp] theorem State.construct_valueOut (n : Word) (raw : List Byte) : (s.construct n raw).valueOut = s.valueOut := rfl
@[simp] theorem State.construct_fBit (n : Word) (raw : List Byte) : (s.construct n raw).fBit = s.fBit := rfl
@[simp] theorem State.construct_passCount (n : Word) (raw : List Byte) : (s.construct n raw).passCount = s.passCount := rfl
@[simp] theorem State.construct_cfgDomainSize (n : Word) (raw : List Byte) : (s.construct n raw).cfgDomainSize = n := rfl
@[simp] theorem State.construct_cfgSourceBits (n : Word) (raw : List Byte) : (s.construct n raw).cfgSourceBits = BitVec.ofInt 64 (partition n.toNat).sourceBits := rfl
@[simp] theorem State.construct_cfgTargetBits (n : Word) (raw : List Byte) : (s.construct n raw).cfgTargetBits = BitVec.ofNat 64 (partition n.toNat).targetBits := rfl
@[simp] theorem State.construct_cfgDomainBits (n : Word) (raw : List Byte) : (s.construct n raw).cfgDomainBits = BitVec.ofNat 64 (partition n.toNat).domainBits := rfl
@[simp] theorem State.construct_cfgRounds (n : Word) (raw : List Byte) : (s.construct n raw).cfgRounds = BitVec.ofNat 64 (Config.roundsPerBit * (partition n.toNat).domainBits) := rfl
@[simp] theorem State.construct_skey (n : Word) (raw : List Byte) : (s.construct n raw).skey = deriveKey Config.hardware raw labelSource := rfl
@[simp] theorem State.construct_rkey (n : Word) (raw : List Byte) : (s.construct n raw).rkey = deriveKey Config.hardware raw labelRound := rfl
@[simp] theorem State.construct_slotS (n : Word) (raw : List Byte) : (s.construct n raw).slotS = true := rfl
@[simp] theorem State.construct_slotR (n : Word) (raw : List Byte) : (s.construct n raw).slotR = true := rfl
@[simp] theorem State.construct_pending (n : Word) (raw : List Byte) : (s.construct n raw).pending = s.pending := rfl
@[simp] theorem State.construct_scratch (n : Word) (raw : List Byte) : (s.construct n raw).scratch = s.scratch := rfl
@[simp] theorem State.construct_schedule (n : Word) (raw : List Byte) : (s.construct n raw).schedule = s.schedule := rfl
@[simp] theorem State.construct_busReply (n : Word) (raw : List Byte) : (s.construct n raw).busReply = s.busReply := rfl
@[simp] theorem State.construct_primOk (n : Word) (raw : List Byte) : (s.construct n raw).primOk = s.primOk := rfl
@[simp] theorem State.construct_drawCount (n : Word) (raw : List Byte) : (s.construct n raw).drawCount = s.drawCount := rfl

@[simp] theorem State.zeroizeData_status : s.zeroizeData.status = { s.status with ready := false } := rfl
@[simp] theorem State.zeroizeData_ctrlIE : s.zeroizeData.ctrlIE = s.ctrlIE := rfl
@[simp] theorem State.zeroizeData_domainSizeIn : s.zeroizeData.domainSizeIn = 0 := rfl
@[simp] theorem State.zeroizeData_keyLen : s.zeroizeData.keyLen = 0 := rfl
@[simp] theorem State.zeroizeData_valueIn : s.zeroizeData.valueIn = 0 := rfl
@[simp] theorem State.zeroizeData_fSource : s.zeroizeData.fSource = 0 := rfl
@[simp] theorem State.zeroizeData_fRound : s.zeroizeData.fRound = 0 := rfl
@[simp] theorem State.zeroizeData_keybuf : s.zeroizeData.keybuf = Vector.replicate 8 0 := rfl
@[simp] theorem State.zeroizeData_valueOut : s.zeroizeData.valueOut = 0 := rfl
@[simp] theorem State.zeroizeData_fBit : s.zeroizeData.fBit = false := rfl
@[simp] theorem State.zeroizeData_passCount : s.zeroizeData.passCount = 0 := rfl
@[simp] theorem State.zeroizeData_cfgDomainSize : s.zeroizeData.cfgDomainSize = 0 := rfl
@[simp] theorem State.zeroizeData_cfgSourceBits : s.zeroizeData.cfgSourceBits = 0 := rfl
@[simp] theorem State.zeroizeData_cfgTargetBits : s.zeroizeData.cfgTargetBits = 0 := rfl
@[simp] theorem State.zeroizeData_cfgDomainBits : s.zeroizeData.cfgDomainBits = 0 := rfl
@[simp] theorem State.zeroizeData_cfgRounds : s.zeroizeData.cfgRounds = 0 := rfl
@[simp] theorem State.zeroizeData_skey : s.zeroizeData.skey = zeros Config.keyBytes := rfl
@[simp] theorem State.zeroizeData_rkey : s.zeroizeData.rkey = zeros Config.keyBytes := rfl
@[simp] theorem State.zeroizeData_slotS : s.zeroizeData.slotS = false := rfl
@[simp] theorem State.zeroizeData_slotR : s.zeroizeData.slotR = false := rfl
@[simp] theorem State.zeroizeData_pending : s.zeroizeData.pending = s.pending := rfl
@[simp] theorem State.zeroizeData_scratch : s.zeroizeData.scratch = s.scratch := rfl
@[simp] theorem State.zeroizeData_schedule : s.zeroizeData.schedule = s.schedule := rfl
@[simp] theorem State.zeroizeData_busReply : s.zeroizeData.busReply = s.busReply := rfl
@[simp] theorem State.zeroizeData_primOk : s.zeroizeData.primOk = s.primOk := rfl
@[simp] theorem State.zeroizeData_drawCount : s.zeroizeData.drawCount = s.drawCount := rfl

@[simp] theorem State.applyReset_status : s.applyReset.status = State.reset.status := rfl
@[simp] theorem State.applyReset_ctrlIE : s.applyReset.ctrlIE = State.reset.ctrlIE := rfl
@[simp] theorem State.applyReset_domainSizeIn : s.applyReset.domainSizeIn = State.reset.domainSizeIn := rfl
@[simp] theorem State.applyReset_keyLen : s.applyReset.keyLen = State.reset.keyLen := rfl
@[simp] theorem State.applyReset_valueIn : s.applyReset.valueIn = State.reset.valueIn := rfl
@[simp] theorem State.applyReset_fSource : s.applyReset.fSource = State.reset.fSource := rfl
@[simp] theorem State.applyReset_fRound : s.applyReset.fRound = State.reset.fRound := rfl
@[simp] theorem State.applyReset_keybuf : s.applyReset.keybuf = State.reset.keybuf := rfl
@[simp] theorem State.applyReset_valueOut : s.applyReset.valueOut = State.reset.valueOut := rfl
@[simp] theorem State.applyReset_fBit : s.applyReset.fBit = State.reset.fBit := rfl
@[simp] theorem State.applyReset_passCount : s.applyReset.passCount = State.reset.passCount := rfl
@[simp] theorem State.applyReset_cfgDomainSize : s.applyReset.cfgDomainSize = State.reset.cfgDomainSize := rfl
@[simp] theorem State.applyReset_cfgSourceBits : s.applyReset.cfgSourceBits = State.reset.cfgSourceBits := rfl
@[simp] theorem State.applyReset_cfgTargetBits : s.applyReset.cfgTargetBits = State.reset.cfgTargetBits := rfl
@[simp] theorem State.applyReset_cfgDomainBits : s.applyReset.cfgDomainBits = State.reset.cfgDomainBits := rfl
@[simp] theorem State.applyReset_cfgRounds : s.applyReset.cfgRounds = State.reset.cfgRounds := rfl
@[simp] theorem State.applyReset_skey : s.applyReset.skey = State.reset.skey := rfl
@[simp] theorem State.applyReset_rkey : s.applyReset.rkey = State.reset.rkey := rfl
@[simp] theorem State.applyReset_slotS : s.applyReset.slotS = State.reset.slotS := rfl
@[simp] theorem State.applyReset_slotR : s.applyReset.slotR = State.reset.slotR := rfl
@[simp] theorem State.applyReset_pending : s.applyReset.pending = State.reset.pending := rfl
@[simp] theorem State.applyReset_scratch : s.applyReset.scratch = State.reset.scratch := rfl
@[simp] theorem State.applyReset_schedule : s.applyReset.schedule = s.schedule := rfl
@[simp] theorem State.applyReset_busReply : s.applyReset.busReply = State.reset.busReply := rfl
@[simp] theorem State.applyReset_primOk : s.applyReset.primOk = s.primOk := rfl
@[simp] theorem State.applyReset_drawCount : s.applyReset.drawCount = s.drawCount := rfl

@[simp] theorem Status.accepted_ready : st.accepted.ready = st.ready := rfl
@[simp] theorem Status.accepted_busy : st.accepted.busy = true := rfl
@[simp] theorem Status.accepted_done : st.accepted.done = false := rfl
@[simp] theorem Status.accepted_err : st.accepted.err = false := rfl
@[simp] theorem Status.accepted_busywr : st.accepted.busywr = st.busywr := rfl
@[simp] theorem Status.accepted_errCode : st.accepted.errCode = .noError := rfl

@[simp] theorem Status.completedOk_ready : st.completedOk.ready = st.ready := rfl
@[simp] theorem Status.completedOk_busy : st.completedOk.busy = false := rfl
@[simp] theorem Status.completedOk_done : st.completedOk.done = true := rfl
@[simp] theorem Status.completedOk_err : st.completedOk.err = false := rfl
@[simp] theorem Status.completedOk_busywr : st.completedOk.busywr = st.busywr := rfl
@[simp] theorem Status.completedOk_errCode : st.completedOk.errCode = .noError := rfl

@[simp] theorem Status.completedErr_ready (c : ErrorCode) : (st.completedErr c).ready = st.ready := rfl
@[simp] theorem Status.completedErr_busy (c : ErrorCode) : (st.completedErr c).busy = false := rfl
@[simp] theorem Status.completedErr_done (c : ErrorCode) : (st.completedErr c).done = true := rfl
@[simp] theorem Status.completedErr_err (c : ErrorCode) : (st.completedErr c).err = true := rfl
@[simp] theorem Status.completedErr_busywr (c : ErrorCode) : (st.completedErr c).busywr = st.busywr := rfl
@[simp] theorem Status.completedErr_errCode (c : ErrorCode) : (st.completedErr c).errCode = c := rfl

@[simp] theorem Status.clearedBy_ready (w : Word) : (st.clearedBy w).ready = st.ready := rfl
@[simp] theorem Status.clearedBy_busy (w : Word) : (st.clearedBy w).busy = st.busy := rfl
@[simp] theorem Status.clearedBy_done (w : Word) : (st.clearedBy w).done = (st.done && !w.getLsbD 2) := rfl
@[simp] theorem Status.clearedBy_err (w : Word) : (st.clearedBy w).err = st.err := rfl
@[simp] theorem Status.clearedBy_busywr (w : Word) : (st.clearedBy w).busywr = (st.busywr && !w.getLsbD 4) := rfl
@[simp] theorem Status.clearedBy_errCode (w : Word) : (st.clearedBy w).errCode = st.errCode := rfl

/-- Storing an operand changes no field but the operand registers. -/
theorem State.storeOperand_frame (r : Reg) (w : Word) :
    { s.storeOperand r w with
      domainSizeIn := s.domainSizeIn, keyLen := s.keyLen, valueIn := s.valueIn, fSource := s.fSource,
      fRound := s.fRound, keybuf := s.keybuf } = s := by
  cases r <;> rfl

@[simp] theorem State.storeOperand_status (r : Reg) (w : Word) : (s.storeOperand r w).status = s.status := by
  cases r <;> rfl
@[simp] theorem State.storeOperand_ctrlIE (r : Reg) (w : Word) : (s.storeOperand r w).ctrlIE = s.ctrlIE := by
  cases r <;> rfl
@[simp] theorem State.storeOperand_valueOut (r : Reg) (w : Word) : (s.storeOperand r w).valueOut = s.valueOut := by
  cases r <;> rfl
@[simp] theorem State.storeOperand_fBit (r : Reg) (w : Word) : (s.storeOperand r w).fBit = s.fBit := by
  cases r <;> rfl
@[simp] theorem State.storeOperand_passCount (r : Reg) (w : Word) : (s.storeOperand r w).passCount = s.passCount := by
  cases r <;> rfl
@[simp] theorem State.storeOperand_cfgDomainSize (r : Reg) (w : Word) : (s.storeOperand r w).cfgDomainSize = s.cfgDomainSize := by
  cases r <;> rfl
@[simp] theorem State.storeOperand_cfgSourceBits (r : Reg) (w : Word) : (s.storeOperand r w).cfgSourceBits = s.cfgSourceBits := by
  cases r <;> rfl
@[simp] theorem State.storeOperand_cfgTargetBits (r : Reg) (w : Word) : (s.storeOperand r w).cfgTargetBits = s.cfgTargetBits := by
  cases r <;> rfl
@[simp] theorem State.storeOperand_cfgDomainBits (r : Reg) (w : Word) : (s.storeOperand r w).cfgDomainBits = s.cfgDomainBits := by
  cases r <;> rfl
@[simp] theorem State.storeOperand_cfgRounds (r : Reg) (w : Word) : (s.storeOperand r w).cfgRounds = s.cfgRounds := by
  cases r <;> rfl
@[simp] theorem State.storeOperand_skey (r : Reg) (w : Word) : (s.storeOperand r w).skey = s.skey := by
  cases r <;> rfl
@[simp] theorem State.storeOperand_rkey (r : Reg) (w : Word) : (s.storeOperand r w).rkey = s.rkey := by
  cases r <;> rfl
@[simp] theorem State.storeOperand_slotS (r : Reg) (w : Word) : (s.storeOperand r w).slotS = s.slotS := by
  cases r <;> rfl
@[simp] theorem State.storeOperand_slotR (r : Reg) (w : Word) : (s.storeOperand r w).slotR = s.slotR := by
  cases r <;> rfl
@[simp] theorem State.storeOperand_pending (r : Reg) (w : Word) : (s.storeOperand r w).pending = s.pending := by
  cases r <;> rfl
@[simp] theorem State.storeOperand_scratch (r : Reg) (w : Word) : (s.storeOperand r w).scratch = s.scratch := by
  cases r <;> rfl
@[simp] theorem State.storeOperand_schedule (r : Reg) (w : Word) : (s.storeOperand r w).schedule = s.schedule := by
  cases r <;> rfl
@[simp] theorem State.storeOperand_busReply (r : Reg) (w : Word) : (s.storeOperand r w).busReply = s.busReply := by
  cases r <;> rfl
@[simp] theorem State.storeOperand_primOk (r : Reg) (w : Word) : (s.storeOperand r w).primOk = s.primOk := by
  cases r <;> rfl
@[simp] theorem State.storeOperand_drawCount (r : Reg) (w : Word) : (s.storeOperand r w).drawCount = s.drawCount := by
  cases r <;> rfl

end Sys2Proof.Machine
end

