-- ==== Sys2Proof/Laws/Ops.lean ====
section
/-! SUPPORT. What each shared operation can do, said once: the inversion lemmas of a step, of a host access, of the
engine and of the five meanings, and the small lemmas of the walk, the passes, the lanes and the parameters. -/

namespace Sys2Proof.Machine

variable {s t : State}

/-- The instance satisfies the build-time conditions of R6, whatever the free choices are. -/
theorem hardware_legal : Config.hardware.Legal := by
  refine ⟨?_, ?_, ?_⟩
  · simp only [Config.hardware, Config.keyBytes]; omega
  · simp only [Config.hardware, Config.blockBytes]; omega
  · simp only [Config.hardware, Config.digestBytes, Config.keyBytes]
    have h : 0 < 256 - (1 + Config.keySizeChoice % 255) := by omega
    have := Nat.mod_lt Config.digestSizeChoice h
    omega

theorem zeros_length (n : Nat) : (zeros n).length = n := List.length_replicate

theorem blockEncrypt_length (p : Primitives) (key blk : List Byte) :
    (p.blockEncrypt key blk).length = p.blockBytes := by simp [Primitives.blockEncrypt]

theorem mac_length (p : Primitives) (key msg : List Byte) : (p.mac key msg).length = p.digestBytes := by
  simp [Primitives.mac]

theorem encodeLe_length (bb x : Nat) : (encodeLe bb x).length = bb := by simp [encodeLe]

/-! ### The passes and the walk, one turn at a time -/

@[simp] theorem pass_zero (f : Nat → Nat → Bool) (sb v : Nat) : pass f sb 0 v = v := rfl

theorem pass_succ (f : Nat → Nat → Bool) (sb r v : Nat) : pass f sb (r + 1) v = fwd f sb (pass f sb r v) r := rfl

@[simp] theorem passInv_zero (f : Nat → Nat → Bool) (sb v : Nat) : passInv f sb 0 v = v := rfl

theorem passInv_succ (f : Nat → Nat → Bool) (sb r v : Nat) :
    passInv f sb (r + 1) v = passInv f sb r (inv f sb v r) := rfl

@[simp] theorem walk_zero (step : Nat → Nat) (n v : Nat) : walk step n 0 v = none := rfl

theorem walk_hit {step : Nat → Nat} {n v : Nat} (k : Nat) (h : step v < n) :
    walk step n (k + 1) v = some (step v, 1) := by simp [walk, h]

theorem walk_miss {step : Nat → Nat} {n v : Nat} (k : Nat) (h : ¬ step v < n) :
    walk step n (k + 1) v = (walk step n k (step v)).map fun r => (r.1, r.2 + 1) := by
  simp only [walk, h, if_false]
  cases walk step n k (step v) <;> rfl

/-! ### The lanes of an access -/

theorem mergeLanes_full (offset : Nat) (old data : Word) : mergeLanes offset 8 old data = data := by
  have h : laneMask offset 8 = BitVec.allOnes 64 := rfl
  rw [mergeLanes, laneData, if_pos rfl, h, BitVec.and_allOnes]
  simp

theorem readLanes_full (offset : Nat) (value : Word) : readLanes offset 8 value = value := by simp [readLanes]

/-! ### Meanings: the completions each can end in -/

/-- What a CONFIG can answer: one of the error completions of the cleared state, or the construction. -/
theorem execConfig_cases (s : State) :
    (∃ code, code ≠ .noError ∧ code ≠ .primitive ∧
        execConfig s = .next (s.clearSecrets.clearKeybuf.completeErr code)) ∨
      (s.primOk = false ∧ execConfig s = .next (s.clearSecrets.clearKeybuf.drawNext.completeErr .primitive)) ∨
      (s.domainSizeIn ≠ 0 ∧ (partition s.domainSizeIn.toNat).domainBits ≤ Config.maxDomainBits ∧
        s.keyLen.toNat ≤ Config.rawKeyMax ∧ s.primOk = true ∧
        execConfig s =
          .next ((s.clearSecrets.clearKeybuf.drawNext.construct s.domainSizeIn s.rawKey).completeOk)) := by
  unfold execConfig
  by_cases h1 : s.domainSizeIn = 0
  · exact .inl ⟨.domainSize, by decide, by decide, by simp [h1]⟩
  by_cases h2 : (partition s.domainSizeIn.toNat).domainBits > Config.maxDomainBits
  · exact .inl ⟨.domainSize, by decide, by decide, by rw [if_neg h1, if_pos h2]⟩
  by_cases h3 : s.keyLen.toNat > Config.rawKeyMax
  · exact .inl ⟨.keyLen, by decide, by decide, by rw [if_neg h1, if_neg h2, if_pos h3]⟩
  by_cases h4 : s.primOk = false
  · exact .inr (.inl ⟨h4, by rw [if_neg h1, if_neg h2, if_neg h3, if_pos h4]⟩)
  · exact .inr (.inr ⟨h1, by omega, by omega, by simpa using h4, by rw [if_neg h1, if_neg h2, if_neg h3, if_neg h4]⟩)

/-- What an ENCRYPT or a DECRYPT can answer, from its walk's result. -/
theorem State.finishWalk_next {r : Option (Nat × Nat)} (h : s.finishWalk r = .next t) :
    ∃ c p, r = some (c, p) ∧
      t = ({ s with valueOut := BitVec.ofNat 64 c, passCount := BitVec.ofNat 64 p }).completeOk := by
  match r, h with
  | some (c, p), h => exact ⟨c, p, rfl, by simpa [State.finishWalk] using h.symm⟩
  | none, h => simp [State.finishWalk] at h

theorem execEncrypt_cases (h : execEncrypt s = .next t) :
    (s.status.ready = false ∧ t = s.completeErr .notReady) ∨
      (s.status.ready = true ∧ s.cfgDomainSize.toNat ≤ s.valueIn.toNat ∧ t = s.completeErr .domainValue) ∨
      (s.status.ready = true ∧ s.valueIn.toNat < s.cfgDomainSize.toNat ∧ ∃ c p, s.encWalk = some (c, p) ∧
        t = ({ s with valueOut := BitVec.ofNat 64 c, passCount := BitVec.ofNat 64 p }).completeOk) := by
  unfold execEncrypt at h
  split at h
  · next hr => exact .inl ⟨hr, by simpa using h.symm⟩
  · next hr =>
    split at h
    · next hv => exact .inr (.inl ⟨by simpa using hr, hv, by simpa using h.symm⟩)
    · next hv => exact .inr (.inr ⟨by simpa using hr, by omega, State.finishWalk_next h⟩)

theorem execDecrypt_cases (h : execDecrypt s = .next t) :
    (s.status.ready = false ∧ t = s.completeErr .notReady) ∨
      (s.status.ready = true ∧ s.cfgDomainSize.toNat ≤ s.valueIn.toNat ∧ t = s.completeErr .domainValue) ∨
      (s.status.ready = true ∧ s.valueIn.toNat < s.cfgDomainSize.toNat ∧ ∃ c p, s.decWalk = some (c, p) ∧
        t = ({ s with valueOut := BitVec.ofNat 64 c, passCount := BitVec.ofNat 64 p }).completeOk) := by
  unfold execDecrypt at h
  split at h
  · next hr => exact .inl ⟨hr, by simpa using h.symm⟩
  · next hr =>
    split at h
    · next hv => exact .inr (.inl ⟨by simpa using hr, hv, by simpa using h.symm⟩)
    · next hv => exact .inr (.inr ⟨by simpa using hr, by omega, State.finishWalk_next h⟩)

theorem execFeval_cases (h : execFeval s = .next t) :
    (s.status.ready = false ∧ t = s.completeErr .notReady) ∨
      (s.status.ready = true ∧
        t = ({ s with fBit := s.roundBit s.fSource.toNat s.fRound.toNat }).completeOk) := by
  unfold execFeval at h
  split at h
  · next hr => exact .inl ⟨hr, by simpa using h.symm⟩
  · next hr => exact .inr ⟨by simpa using hr, by simpa using h.symm⟩

theorem execZeroize_next (h : execZeroize s = .next t) : t = s.zeroizeData.completeOk := by
  simpa [execZeroize] using h.symm

/-! ### Host accesses -/

theorem Reg.mem_all (r : Reg) : r ∈ Reg.all := by
  cases r with
  | key j => revert j; decide
  | _ => decide

/-- Registers are aligned to 8 bytes (R20). -/
theorem Reg.offset_aligned (r : Reg) : r.offset % 8 = 0 := by cases r <;> simp [Reg.offset]

theorem regAt_holds {r : Reg} {offset : Nat} (h : regAt offset = some r) :
    r.offset ≤ offset ∧ offset < r.offset + r.bytes := by
  have held := List.find?_some h
  simpa [Reg.holds] using held

/-- At an operand register a legal write is the operand write of R67. -/
theorem State.writeEffect_operand {r : Reg} {offset : Nat} (s : State) (size : Nat) (data : Word)
    (h : regAt offset = some r) (hr : r.isOperand = true) :
    s.writeEffect offset size data = s.writeOperand r offset size data := by
  unfold State.writeEffect
  rw [h]
  cases r <;> simp_all [Reg.isOperand]

/-- What a legal write can do: nothing, accept a command, note a dropped write, clear STATUS bits, write CTRL, or store
an operand while no command is pending. -/
theorem State.writeEffect_cases (s : State) (offset size : Nat) (data : Word) :
    s.writeEffect offset size data = s ∨
      (s.status.busy = false ∧ s.writeEffect offset size data = s.accept (data.setWidth 32)) ∨
      (s.status.busy = true ∧ s.writeEffect offset size data = s.noteDroppedWrite) ∨
      (∃ w, s.writeEffect offset size data = { s with status := s.status.clearedBy w }) ∨
      (∃ b, s.writeEffect offset size data = { s with ctrlIE := b }) ∨
      (s.status.busy = false ∧ ∃ r w, r.isOperand = true ∧ s.writeEffect offset size data = s.storeOperand r w) := by
  unfold State.writeEffect
  split
  · exact .inl rfl
  · unfold State.writeCmd
    by_cases hb : s.status.busy = true
    · exact .inr (.inr (.inl ⟨hb, by simp [hb]⟩))
    · exact .inr (.inl ⟨by simpa using hb, by simp [hb]⟩)
  · exact .inr (.inr (.inr (.inl ⟨_, rfl⟩)))
  · exact .inr (.inr (.inr (.inr (.inl ⟨_, rfl⟩))))
  · next r _ _ _ _ =>
    by_cases hr : r.isOperand = true
    · unfold State.writeOperand
      by_cases hb : s.status.busy = true
      · exact .inr (.inr (.inl ⟨hb, by simp [hr, hb]⟩))
      · exact .inr (.inr (.inr (.inr (.inr ⟨by simpa using hb, r, _, hr, by simp [hr, hb]; rfl⟩))))
    · exact .inl (by simp [hr])

/-- What a host access that is no bus error does. -/
theorem hostAccess_next {a : Access} (h : hostAccess a s = .next t) :
    (∃ offset size, a = .read offset size ∧ legalAccess offset size = true ∧
        t = { s with busReply := some (s.memRead offset size) }) ∨
      (∃ offset size data, a = .write offset size data ∧ legalAccess offset size = true ∧
        t = { s.writeEffect offset size data with busReply := some .writeDone }) := by
  cases a with
  | read offset size =>
    by_cases hl : legalAccess offset size = true
    · exact .inl ⟨offset, size, rfl, hl, by simpa [hostAccess, hl] using h.symm⟩
    · simp [hostAccess, hl] at h
  | write offset size data =>
    by_cases hl : legalAccess offset size = true
    · exact .inr ⟨offset, size, data, rfl, hl, by simpa [hostAccess, State.memWrite, hl] using h.symm⟩
    · simp [hostAccess, hl] at h

/-! ### The engine and the step -/

/-- What the engine's step does. -/
theorem engineStep_cases (h : engineStep s = .next t) :
    (s.pending = none ∧ t = s) ∨
      (∃ w i, s.pending = some w ∧ decode w = .ok i ∧ exec i s = .next t) ∨
      (∃ w e, s.pending = some w ∧ decode w = .error e ∧ t = s.completeErr .illegalCmd) := by
  unfold engineStep at h
  split at h
  · next hp => exact .inl ⟨hp, by simpa using h.symm⟩
  · next w hp =>
    split at h
    · next i hd => exact .inr (.inl ⟨w, i, hp, hd, h⟩)
    · next e hd => exact .inr (.inr ⟨w, e, hp, hd, by simpa using h.symm⟩)

/-- What one step does: the turn at the head of the schedule, or the engine's when none is left. -/
theorem step_cases (h : step s = .next t) :
    (s.schedule = [] ∧ engineStep s = .next t) ∨
      (∃ rest, s.schedule = .engine :: rest ∧ engineStep { s with schedule := rest } = .next t) ∨
      (∃ rest, s.schedule = .reset :: rest ∧ t = ({ s with schedule := rest } : State).applyReset) ∨
      (∃ a rest, s.schedule = .host a :: rest ∧ hostAccess a { s with schedule := rest } = .next t) := by
  unfold step nextTurn at h
  split at h
  · next hs => exact .inl ⟨hs, h⟩
  · next u rest hs =>
    cases u with
    | engine => exact .inr (.inl ⟨rest, hs, h⟩)
    | reset => exact .inr (.inr (.inl ⟨rest, hs, by simpa [takeTurn] using h.symm⟩))
    | host a => exact .inr (.inr (.inr ⟨a, rest, hs, h⟩))

/-- A run of one step more takes that step first. -/
theorem core_run_succ (k : Nat) (h : step s = .next t) :
    Sys2Proof.core.run (k + 1) s = Sys2Proof.core.run k t := by
  have general : ∀ (M : Host.Core) (a b : M.State), M.step a = .next b → M.run (k + 1) a = M.run k b := by
    intro M a b hab
    simp only [Host.Core.run, hab]
  exact general Sys2Proof.core s t h

end Sys2Proof.Machine
end

