-- ==== Sys2Proof/Laws/PerInstr.lean ====
section
/-! SUPPORT. Statements for all instructions, one lemma per constructor: each command is well formed, its word is a legal
command word with RSV = 0, and its opcode is the one assigned to it (spec/30_encoding.md R81 to R84, R88). -/

namespace Sys2Proof.Laws.EncodedWord

/-- A command is well formed, its command word is legal (R82), and its opcode is assigned to it (R81). -/
def Statement (i : Instr) : Prop :=
  i.wellFormed = true ∧ CmdWord.wellFormed (encode i) = true ∧ CmdWord.reserved (encode i) = 0 ∧
    opcodeCommand (CmdWord.opcode (encode i)) = some i

theorem config : Statement .config := ⟨rfl, rfl, rfl, rfl⟩
theorem encrypt : Statement .encrypt := ⟨rfl, rfl, rfl, rfl⟩
theorem decrypt : Statement .decrypt := ⟨rfl, rfl, rfl, rfl⟩
theorem feval : Statement .feval := ⟨rfl, rfl, rfl, rfl⟩
theorem zeroize : Statement .zeroize := ⟨rfl, rfl, rfl, rfl⟩

end Sys2Proof.Laws.EncodedWord
end

