-- ==== Sys2Proof/Tests/Slice0.lean ====
section
/-! SUPPORT. The model's own tests. Expected values come from spec/95_test_vectors.md (the vector is named with each
test) or from the rules cited; the witnesses at the end meet the hypotheses of the statements. -/

namespace Sys2Proof.Tests

open Sys2Proof.Machine

/-- Whether an outcome is a next state with a property. -/
def nextIs (o : Host.Outcome State Fault Refusal) (p : State → Bool) : Bool :=
  match o with
  | .next t => p t
  | .fault _ => false
  | .refused _ => false

/-! ### Well-formedness and decoding -/

theorem test_reserved_bits_are_ill_formed : CmdWord.wellFormed 0x00000102 = false := by decide
theorem test_opcode_zero_is_ill_formed : CmdWord.wellFormed 0x00000000 = false := by decide
theorem test_opcode_six_is_ill_formed : CmdWord.wellFormed 0x00000006 = false := by decide
theorem test_two_byte_access_is_illegal : legalAccess 0x010 2 = false := by decide
theorem test_misaligned_access_is_illegal : legalAccess 0x002 4 = false ∧ legalAccess 0x044 8 = false := by decide
theorem test_access_past_the_window_is_illegal : legalAccess 0x200 4 = false ∧ legalAccess 0x1FC 4 = true := by decide

/-- R81, R88: each command's word written out bit by bit. -/
theorem test_table_words_decode :
    decode 0b00000000000000000000000000000001 = .ok .config ∧
    decode 0b00000000000000000000000000000010 = .ok .encrypt ∧
    decode 0b00000000000000000000000000000011 = .ok .decrypt ∧
    decode 0b00000000000000000000000000000100 = .ok .feval ∧
    decode 0b00000000000000000000000000000101 = .ok .zeroize := by decide

/-- R88: CONFIG is the bytes 01 00 00 00, whatever follows. -/
theorem test_config_bytes_decode : decodeBytes [0x01, 0x00, 0x00, 0x00, 0xAA] = .ok (.config, [0xAA]) := by decide

theorem test_short_bytes_are_rejected : decodeBytes [0x01, 0x00, 0x00] = .error .truncated := by decide

theorem test_table_word_decodes : decodeTableWord 32 3 = some .decrypt ∧ decodeTableWord 32 0x102 = none := by decide

/-! ### Partition, blocks and rounds -/

/-- V10. -/
theorem test_partition_vectors :
    partition 1 = ⟨1, -1, 0⟩ ∧ partition 2 = ⟨1, 0, 1⟩ ∧ partition 3 = ⟨1, 1, 2⟩ ∧ partition 17 = ⟨1, 4, 5⟩ ∧
    partition (2 ^ 62 + 1) = ⟨1, 62, 63⟩ ∧ partition (2 ^ 63) = ⟨1, 62, 63⟩ ∧
    partition (2 ^ 63 + 1) = ⟨1, 63, 64⟩ := by decide

/-- V11. -/
theorem test_pass_bounds : passBound 1 0 = 1 ∧ passBound 5 3 = 4 ∧ passBound 17 5 = 16 := by decide

/-- V12. -/
theorem test_encode_le :
    encodeLe 16 0x123456789ABCDEF0 = [0xF0, 0xDE, 0xBC, 0x9A, 0x78, 0x56, 0x34, 0x12, 0, 0, 0, 0, 0, 0, 0, 0] := by
  decide

/-- V15. -/
theorem test_rounds :
    fwd (fun _ _ => true) 4 22 0 = 12 ∧ fwd (fun _ _ => false) 4 22 0 = 13 ∧ inv (fun _ _ => true) 4 12 0 = 22 ∧
    inv (fun _ _ => false) 4 13 0 = 22 ∧ fwd (fun _ _ => true) 0 1 0 = 0 ∧ inv (fun _ _ => true) 1 2 0 = 3 := by decide

/-- V40, R68: the key "secret key" written as two words. -/
theorem test_raw_key_bytes :
    ({ State.reset with
        keyLen := 10
        keybuf := ((Vector.replicate 8 0).set 0 0x6B20746572636573).set 1 0x7965 } : State).rawKey =
      [0x73, 0x65, 0x63, 0x72, 0x65, 0x74, 0x20, 0x6B, 0x65, 0x79] := by decide

/-- R87: `setkey "secret key"` is the three writes of P1. -/
theorem test_setkey_writes :
    setkey [0x73, 0x65, 0x63, 0x72, 0x65, 0x74, 0x20, 0x6B, 0x65, 0x79] =
      [.host (.write 0x048 8 10), .host (.write 0x100 8 0x6B20746572636573), .host (.write 0x108 8 0x7965)] := by
  decide

/-! ### The stub primitives of V20 -/

/-- The sum of the bytes of a string (V20). -/
def byteSum (s : List Byte) : Nat := s.foldr (fun b acc => b.toNat + acc) 0

/-- MOCK (V20). -/
def mock : Primitives where
  keyBytes := 16
  blockBytes := 16
  digestBytes := 32
  encryptByte := fun k x j =>
    let y := x.getD j 0 ^^^ k.getD (j % 16) 0
    y ^^^ ((y >>> 1) &&& (y >>> 2))
  macByte := fun key m i => BitVec.ofNat 8 (byteSum key + 7 * byteSum m + 13 * i + m.length)

/-- SKEY of V21. -/
def mockSkey : List Byte :=
  [0xC6, 0xD3, 0xE0, 0xED, 0xFA, 0x07, 0x14, 0x21, 0x2E, 0x3B, 0x48, 0x55, 0x62, 0x6F, 0x7C, 0x89]

/-- RKEY of V21. -/
def mockRkey : List Byte :=
  [0xE1, 0xEE, 0xFB, 0x08, 0x15, 0x22, 0x2F, 0x3C, 0x49, 0x56, 0x63, 0x70, 0x7D, 0x8A, 0x97, 0xA4]

/-- V21. -/
theorem test_mock_keys :
    deriveKey mock [0x73, 0x65, 0x63, 0x72, 0x65, 0x74, 0x20, 0x6B, 0x65, 0x79] labelSource = mockSkey ∧
    deriveKey mock [0x73, 0x65, 0x63, 0x72, 0x65, 0x74, 0x20, 0x6B, 0x65, 0x79] labelRound = mockRkey := by decide

/-- V22: round_cipher of f(0, 1). -/
theorem test_mock_round_cipher :
    mock.blockEncrypt mockRkey (encodeLe 16 1) =
      [0xD0, 0xDD, 0xC7, 0x08, 0x15, 0x22, 0x2C, 0x32, 0x49, 0x57, 0x73, 0x68, 0x63, 0x8A, 0x96, 0xA4] := by decide

/-- V22, V24. -/
theorem test_mock_round_bits :
    roundBit mock mockSkey mockRkey 0 1 = true ∧ roundBit mock mockSkey mockRkey 6 3 = false ∧
    roundBit mock mockSkey mockRkey (2 ^ 64 - 1) 0 = false := by decide

/-- V34: ENCRYPT of 0 with N = 3 takes two passes, and DECRYPT retraces them. -/
theorem test_mock_walks_three :
    encWalk (roundBit mock mockSkey mockRkey) 3 1 2 0 = some (2, 2) ∧
    decWalk (roundBit mock mockSkey mockRkey) 3 1 2 2 = some (0, 2) := by decide

/-- V44, under IDENT, where f(s, r) = (s ^ r) & 1: ENCRYPT of 1 and DECRYPT of 0 with N = 17. -/
theorem test_ident_walks_seventeen :
    encWalk (fun s r => (s + r) % 2 == 1) 17 4 5 1 = some (0, 2) ∧
    decWalk (fun s r => (s + r) % 2 == 1) 17 4 5 5 = some (10, 5) := by decide

/-! ### Registers and the bus -/

/-- V19: PARAMS of the typical instance, and ID. -/
theorem test_params_and_id : paramsWord mock = 0x000000402010103F ∧ idWord = 0x0000000131455046 := by decide

/-- V17. -/
theorem test_status_words :
    Status.word ⟨true, false, true, true, false, .domainValue⟩ = 0x10D ∧
    Status.word ⟨false, false, true, true, false, .keyLen⟩ = 0x60C ∧
    Status.word ⟨true, false, true, false, true, .noError⟩ = 0x15 := by decide

/-- V19: writing all ones to STATUS = 0x15 leaves 0x1. -/
theorem test_status_w1c :
    (({ State.reset with status := ⟨true, false, true, false, true, .noError⟩ } : State).memWrite 0x008 8
      0xFFFFFFFFFFFFFFFF).2.status.word = 0x1 := by decide

/-- V19: bits 63:8 of KEY_LEN stay 0; R63: a write to the upper half of KEY0 keeps its lower half. -/
theorem test_half_writes :
    (State.reset.memWrite 0x04C 4 0xFFFFFFFF).2.keyLen = 0 ∧
    ((State.reset.memWrite 0x100 8 0x1111111122222222).2.memWrite 0x104 4 0x33333333).2.keybuf.get 0 =
      0x3333333322222222 := by decide

/-- V47: a VALUE_IN write while BUSY = 1 is dropped and BUSYWR is set. -/
theorem test_busy_write_is_dropped :
    (let t := ((State.reset.accept 2).memWrite 0x050 8 3).2
     t.valueIn = 0 ∧ t.status.busywr = true ∧ t.pending = some 2) := by decide

/-- R67, R208, U9: a write to the upper half of KEY_LEN while BUSY = 1 is a write to KEY_LEN and sets BUSYWR; one to the
reserved offset 0x004 does not (R43). -/
theorem test_busy_half_writes :
    ((State.reset.accept 2).memWrite 0x04C 4 1).2.status.busywr = true ∧
    ((State.reset.accept 2).memWrite 0x004 4 1).2.status.busywr = false := by decide

/-- R85: a 32-bit write to 0x004 is no command; in a 64-bit write to CMD bits 63:32 are ignored (V16). -/
theorem test_cmd_writes :
    (State.reset.memWrite 0x004 4 2).2.pending = none ∧
    (State.reset.memWrite 0x000 8 0xFFFFFFFF00000002).2.pending = some 2 := by decide

/-! ### The commands, one step each -/

/-- A state right after reset with a domain size, a key length and the next draw. -/
def configInput (n : Word) (len : BitVec 8) (ok : Bool) : State :=
  { State.reset with domainSizeIn := n, keyLen := len, primOk := ok }

/-- V40, for any primitives. -/
theorem test_config_seventeen :
    nextIs (exec .config (configInput 17 10 true)) (fun t =>
      t.status.word == 0x5 && t.cfgDomainSize == 17 && t.cfgSourceBits == 4 && t.cfgTargetBits == 1 &&
        t.cfgDomainBits == 5 && t.cfgRounds == 20 && t.keyLen == 10) = true := by decide

/-- V18: N = 2^63 + 1 and L = 65 report DOMAIN_SIZE (0x20C). -/
theorem test_config_priority :
    nextIs (exec .config (configInput 0x8000000000000001 65 true)) (fun t => t.status.word == 0x20C) = true := by decide

/-- A constructed block: the empty raw key, any primitives. -/
def constructed (n sb db rounds : Word) : State :=
  { State.reset with
    status := { Status.reset with ready := true }
    skey := deriveKey Config.hardware [] labelSource
    rkey := deriveKey Config.hardware [] labelRound
    slotS := true
    slotR := true
    cfgDomainSize := n
    cfgSourceBits := sb
    cfgTargetBits := 1
    cfgDomainBits := db
    cfgRounds := rounds }

/-- The block of V31, N = 1. -/
def oneElement : State := constructed 1 0xFFFFFFFFFFFFFFFF 0 0

/-- The block of V40, N = 17, with an operand. -/
def seventeen (v : Word) : State := { constructed 17 4 5 20 with valueIn := v }

/-- V31, P4. -/
theorem test_encrypt_one_element :
    nextIs (exec .encrypt oneElement) (fun t => t.valueOut == 0 && t.passCount == 1 && t.status.word == 0x5) = true := by
  decide

/-- V4: v = N is rejected. -/
theorem test_encrypt_out_of_domain :
    nextIs (exec .encrypt (seventeen 17)) (fun t => t.status.word == 0x10D) = true := by decide

/-- V31. -/
theorem test_decrypt_one_element :
    nextIs (exec .decrypt oneElement) (fun t => t.valueOut == 0 && t.passCount == 1) = true := by decide

/-- V18. -/
theorem test_decrypt_not_ready : nextIs (exec .decrypt State.reset) (fun t => t.status.word == 0x40C) = true := by decide

/-- V17: FEVAL on a constructed block ends with STATUS 0x5, on another with 0x40C. -/
theorem test_feval_status :
    nextIs (exec .feval (seventeen 0)) (fun t => t.status.word == 0x5) = true ∧
    nextIs (exec .feval State.reset) (fun t => t.status.word == 0x40C) = true := by decide

/-- V45. -/
theorem test_zeroize_status :
    nextIs (exec .zeroize { seventeen 5 with ctrlIE := true })
      (fun t => t.status.word == 0x4 && t.valueIn == 0 && t.cfgDomainSize == 0 && t.ctrlIE && t.irq) = true := by decide

/-- V16, P3: an illegal word completes with ILLEGAL_CMD. -/
theorem test_illegal_word :
    nextIs (step (State.reset.accept 0x102)) (fun t => t.status.word == 0x50C) = true := by decide

/-- A word placed for the next step runs there, also when host accesses wait. -/
theorem test_placed_word_runs_next :
    nextIs (step (({ State.reset with schedule := [rd64 .id] } : State).withFetchWord 32 5))
      (fun t => t.status.word == 0x4 && t.schedule == [rd64 .id]) = true := by decide

/-! ### Witnesses: states and operands that meet the hypotheses of each statement -/

theorem witness_illegal_word :
    (State.reset.accept 0x00000006).pending = some 0x00000006 ∧ CmdWord.wellFormed 0x00000006 = false ∧
    (State.reset.accept 0x80000002).pending = some 0x80000002 ∧ CmdWord.wellFormed 0x80000002 = false := by decide

theorem witness_next_pow2_domains : 1 ≤ 1 ∧ 2 ^ 63 < 2 ^ 63 + 1 ∧ 2 ^ 63 + 1 < 2 ^ 64 ∧ 2 ^ 63 < 2 ^ 64 - 1 := by decide

theorem witness_partition_domains :
    1 ≤ (partition 2).domainBits ∧ (partition 1).domainBits = 0 ∧ 17 ≤ 2 ^ (partition 17).domainBits ∧
    16 = 2 ^ (partition 16).domainBits := by decide

theorem witness_encode_le : 8 ≤ 8 ∧ 2 ^ 64 - 1 < 2 ^ 64 ∧ 7 ≤ 7 ∧ 8 ≤ 8 ∧ 8 < 9 := by decide

theorem witness_xor_blocks : ([0x0F, 0xF0] : List Byte).length = ([0x01, 0x02] : List Byte).length ∧ 1 < 2 := by decide

/-- K >= 1, so byte 0 of a derived key exists. -/
theorem witness_derived_key_byte : 0 < Config.keyBytes := hardware_legal.key.1

theorem witness_raw_key :
    State.reset.status.busy = false ∧ 8 * (0 : Fin 8).val + 0 < min (configInput 1 1 true).keyLen.toNat 64 ∧
    8 * (7 : Fin 8).val + 7 < min (configInput 1 64 true).keyLen.toNat 64 := by decide

theorem witness_identity_cipher :
    ∃ p : Primitives, 1 ≤ p.blockBytes ∧ ∀ key blk i, p.encryptByte key blk i = blk.getD i 0 :=
  ⟨{ mock with encryptByte := fun _ x j => x.getD j 0 }, by decide, fun _ _ _ => rfl⟩

theorem witness_rounds : 31 < 2 ^ (4 + 1) ∧ 1 < 2 ^ (0 + 1) := by decide

theorem witness_passes : 0 < 2 ^ 0 ∧ 31 < 2 ^ 5 := by decide

theorem witness_walk_domains : 16 < 17 ∧ 17 ≤ 2 ^ 5 ∧ 0 < 1 ∧ 1 ≤ 2 ^ 0 := by decide

theorem witness_walk_of_several_passes :
    encWalk (fun s r => (s + r) % 2 == 1) 17 4 5 10 = some (5, 5) := by decide

theorem witness_domain_sizes : 1 ≤ 1 ∧ 1 ≤ 2 ^ 63 ∧ 1 ≤ 2 ^ 63 ∧ 2 ^ 63 ≤ 2 ^ 63 := by decide

theorem witness_config_constructs :
    1 ≤ (configInput 1 0 true).domainSizeIn.toNat ∧ (configInput 1 0 true).domainSizeIn.toNat ≤ 2 ^ 63 ∧
    (configInput 1 0 true).keyLen.toNat ≤ 64 ∧ (configInput 1 0 true).primOk = true ∧
    (configInput 0x8000000000000000 64 true).domainSizeIn.toNat ≤ 2 ^ 63 ∧
    (configInput 0x8000000000000000 64 true).keyLen.toNat ≤ 64 := by decide

/-- One input for each clause of the errors of CONFIG, at the boundaries. -/
theorem witness_config_errors :
    (configInput 0 0 true).domainSizeIn.toNat = 0 ∧ 2 ^ 63 < (configInput 0x8000000000000001 0 true).domainSizeIn.toNat ∧
    (1 ≤ (configInput 0x8000000000000000 65 true).domainSizeIn.toNat ∧
      (configInput 0x8000000000000000 65 true).domainSizeIn.toNat ≤ 2 ^ 63 ∧
      64 < (configInput 0x8000000000000000 65 true).keyLen.toNat) ∧
    (1 ≤ (configInput 1 64 false).domainSizeIn.toNat ∧ (configInput 1 64 false).keyLen.toNat ≤ 64 ∧
      (configInput 1 64 false).primOk = false) := by decide

theorem witness_config_fails : ∃ t, exec .config State.reset = .next t ∧ t.status.err = true := ⟨_, rfl, rfl⟩

theorem witness_config_completes : ∃ t, exec .config (configInput 17 10 true) = .next t ∧ t.status.err = false :=
  ⟨_, rfl, rfl⟩

theorem constructed_seventeen_cfgLatched : (constructed 17 4 5 20).CfgLatched := ⟨by decide, rfl, rfl, rfl, rfl⟩

theorem seventeen_cfgLatched (v : Word) : (seventeen v).CfgLatched :=
  let h := constructed_seventeen_cfgLatched
  ⟨h.domainSize_legal, h.sourceBits, h.targetBits, h.domainBits, h.rounds⟩

theorem oneElement_cfgLatched : oneElement.CfgLatched := ⟨by decide, rfl, rfl, rfl, rfl⟩

/-- The largest legal domain. -/
theorem witness_largest_cfgLatched : (constructed 0x8000000000000000 62 63 252).CfgLatched :=
  ⟨by decide, rfl, rfl, rfl, rfl⟩

/-- ENCRYPT, DECRYPT and the two after each other: a constructed block and the largest value of its domain. -/
theorem witness_encrypt_completes :
    (seventeen 16).status.ready = true ∧ (seventeen 16).CfgLatched ∧
    (seventeen 16).valueIn.toNat < (seventeen 16).cfgDomainSize.toNat :=
  ⟨rfl, seventeen_cfgLatched 16, by decide⟩

theorem witness_one_element :
    oneElement.status.ready = true ∧ oneElement.CfgLatched ∧ oneElement.cfgDomainSize = 1 ∧ oneElement.valueIn = 0 :=
  ⟨rfl, oneElement_cfgLatched, rfl, rfl⟩

theorem witness_out_of_domain :
    (seventeen 17).status.ready = true ∧ (seventeen 17).cfgDomainSize.toNat ≤ (seventeen 17).valueIn.toNat := by decide

theorem witness_not_ready : State.reset.status.ready = false := by decide

theorem witness_zeroize_traces :
    ∃ s t : State, s ≠ t ∧ s.ctrlIE = t.ctrlIE ∧ s.status.busywr = t.status.busywr ∧ s.schedule = t.schedule ∧
      s.busReply = t.busReply ∧ s.primOk = t.primOk ∧ s.drawCount = t.drawCount :=
  ⟨State.reset, { State.reset with valueIn := 5 }, fun h => absurd (congrArg State.valueIn h) (by decide), rfl, rfl, rfl,
    rfl, rfl, rfl⟩

/-- Each command, and an illegal word, completes somewhere. -/
theorem witness_completions :
    (∃ t, exec .encrypt State.reset = .next t) ∧ (∃ t, exec .decrypt (seventeen 17) = .next t) ∧
    (∃ t, exec .feval (seventeen 0) = .next t) ∧ (∃ t, exec .config State.reset = .next t) ∧
    (∃ t, exec .zeroize State.reset = .next t) ∧ ∃ t, engineStep (State.reset.accept 0) = .next t :=
  ⟨⟨_, rfl⟩, ⟨_, rfl⟩, ⟨_, rfl⟩, ⟨_, rfl⟩, ⟨_, rfl⟩, ⟨_, rfl⟩⟩

theorem witness_step_runs :
    (State.reset.accept 2).pending = some 2 ∧ decode 2 = .ok .encrypt ∧ (State.reset.accept 2).schedule = [] ∧
    State.reset.pending = none ∧ ({ State.reset with schedule := [.engine] } : State).schedule = .engine :: [] ∧
    ({ State.reset with schedule := [rd64 .id] } : State).schedule = .host (.read 0x018 8) :: [] ∧
    ({ State.reset with schedule := [.reset] } : State).schedule = .reset :: [] := by decide

/-- One access for each clause: a wrong size, a misaligned one, one past the window, and the last legal ones. -/
theorem witness_accesses :
    ¬ ((2 = 4 ∨ 2 = 8) ∧ 0 % 2 = 0 ∧ 0 + 2 ≤ 0x200) ∧ ¬ ((8 = 4 ∨ 8 = 8) ∧ 0x044 % 8 = 0 ∧ 0x044 + 8 ≤ 0x200) ∧
    ¬ ((4 = 4 ∨ 4 = 8) ∧ 0x200 % 4 = 0 ∧ 0x200 + 4 ≤ 0x200) ∧
    ((4 = 4 ∨ 4 = 8) ∧ 0x1FC % 4 = 0 ∧ 0x1FC + 4 ≤ 0x200) ∧ ((8 = 4 ∨ 8 = 8) ∧ 0x1F8 % 8 = 0 ∧ 0x1F8 + 8 ≤ 0x200) := by
  decide

theorem witness_register_bytes :
    regAt 0x003 = some .cmd ∧ regAt 0x004 = none ∧ regAt 0x007 = none ∧ regAt 0x008 = some .status ∧ regAt 0x0A7 = some .cfgRounds ∧ regAt 0x0A8 = none ∧
    regAt 0x13F = some (.key 7) ∧ regAt 0x140 = none := by decide

theorem witness_little_endian_reads : legalAccess 0x054 4 = true ∧ legalAccess 0x050 8 = true ∧ 7 < 8 ∧ 3 < 4 := by decide

/-- The first and last 4-byte access of each range of the reserved, read-only and write-only space. -/
theorem witness_reserved_space :
    legalAccess 0x004 4 = true ∧ legalAccess 0x028 8 = true ∧ legalAccess 0x03C 4 = true ∧ legalAccess 0x0A8 8 = true ∧
    legalAccess 0x0FC 4 = true ∧ legalAccess 0x140 8 = true ∧ legalAccess 0x1FC 4 = true ∧ legalAccess 0x018 8 = true ∧
    legalAccess 0x024 4 = true ∧ legalAccess 0x058 8 = true ∧ legalAccess 0x070 8 = true ∧ legalAccess 0x0A4 4 = true ∧
    legalAccess 0x000 8 = true ∧ legalAccess 0x100 8 = true ∧ legalAccess 0x13C 4 = true := by decide

theorem witness_repeated_accesses :
    (∃ t, hostAccess (.read 0x008 8) State.reset = .next t) ∧ Reg.isOperand (.key 7) = true ∧
    regAt 0x138 = some (.key 7) :=
  ⟨⟨_, rfl⟩, by decide, by decide⟩

theorem witness_operand_write :
    State.reset.status.busy = false ∧ Reg.keyLen.isOperand = true ∧ legalAccess 0x04C 4 = true ∧
    Reg.keyLen.offset ≤ 0x04C ∧ 0x04C < Reg.keyLen.offset + 8 ∧ legalAccess 0x138 8 = true ∧
    (Reg.key 7).offset ≤ 0x138 ∧ 0x138 < (Reg.key 7).offset + 8 := by decide

theorem witness_busy_write :
    (State.reset.accept 1).status.busy = true ∧ legalAccess 0x048 4 = true ∧ regAt 0x048 = some .keyLen ∧
    legalAccess 0x04C 4 = true ∧ regAt 0x04C = some .keyLen ∧ regAt 0x000 = some .cmd ∧ legalAccess 0x000 8 = true := by
  decide

theorem witness_typical_instance :
    mock.keyBytes = 16 ∧ mock.blockBytes = 16 ∧ mock.digestBytes = 32 ∧ 0x018 ≤ 0x027 ∧ 0x027 < 0x028 := by decide

/-- The engine's turn, and a write to a register beside CTRL: steps that keep CTRL. -/
theorem witness_ctrl_is_kept :
    (∃ t, step (State.reset.accept 5) = .next t) ∧
    (∃ t, step { State.reset with schedule := [.host (.write 0x014 4 1)] } = .next t) ∧
    (∀ rest, (State.reset.accept 5).schedule ≠ .reset :: rest) ∧
    (∀ size data rest, (State.reset.accept 5).schedule ≠ .host (.write 0x010 size data) :: rest) :=
  ⟨⟨_, rfl⟩, ⟨_, rfl⟩, nofun, nofun⟩

theorem witness_irq :
    (∃ t, exec .zeroize State.reset = .next t) ∧ (∃ t, engineStep (State.reset.accept 0) = .next t) ∧
    (State.reset.accept 0).pending = some 0 ∧ State.reset.status.busy = false ∧ (0x4 : Word).getLsbD 2 = true :=
  ⟨⟨_, rfl⟩, ⟨_, rfl⟩, rfl, by decide, by decide⟩

theorem witness_host_access_completes : ∃ t, hostAccess (.write 0x050 8 5) (seventeen 0) = .next t := ⟨_, rfl⟩

/-- A constructed block with a pending FEVAL, which meets the invariant. -/
def pendingFeval : State := (seventeen 5).accept (encode .feval)

theorem pendingFeval_inv : pendingFeval.Inv where
  status_legal := ⟨fun _ => ⟨rfl, rfl, rfl⟩, by decide⟩
  busy_iff_pending := rfl
  key_lengths := by
    have h := hardware_legal.digest.1
    constructor
    · show (deriveKey Config.hardware [] labelSource).length = Config.hardware.keyBytes
      rw [deriveKey, List.length_take, mac_length]; omega
    · show (deriveKey Config.hardware [] labelRound).length = Config.hardware.keyBytes
      rw [deriveKey, List.length_take, mac_length]; omega
  scratch_clear := rfl
  notReady_clear := fun h => absurd h (by decide)
  ready_constructed := fun _ =>
    ⟨⟨[], Nat.zero_le _, rfl, rfl⟩, ⟨rfl, rfl⟩, ⟨by decide, rfl, rfl, rfl, rfl⟩, by decide, by decide⟩

theorem witness_step_keeps_invariant : pendingFeval.Inv ∧ ∃ t, step pendingFeval = .next t :=
  ⟨pendingFeval_inv, _, rfl⟩

theorem witness_bus_error_stops :
    step { pendingFeval with schedule := [.host (.read 0x002 4)] } = .fault (.busError 0x002 4) := by
  simp [step, nextTurn, takeTurn, hostAccess, show legalAccess 0x002 4 = false from rfl]

theorem witness_run_ends :
    ({ pendingFeval with schedule := [rd64 .status, .engine, .reset] } : State).AccessesLegal := by
  intro t ht
  simp only [List.mem_cons, List.not_mem_nil, or_false] at ht
  rcases ht with rfl | rfl | rfl <;> decide

theorem witness_run_ends_inv : ({ pendingFeval with schedule := [rd64 .status, .engine, .reset] } : State).Inv :=
  { status_legal := pendingFeval_inv.status_legal
    busy_iff_pending := rfl
    key_lengths := pendingFeval_inv.key_lengths
    scratch_clear := rfl
    notReady_clear := fun h => absurd h (by decide)
    ready_constructed := fun _ =>
      ⟨⟨[], Nat.zero_le _, rfl, rfl⟩, ⟨rfl, rfl⟩, ⟨by decide, rfl, rfl, rfl, rfl⟩, by decide, by decide⟩ }

/-- Two states that differ in a key, with a read of STATUS to come. -/
theorem witness_secrets :
    ∃ s t s' : State, s ≠ t ∧ s.SameButSecrets t ∧ (∀ rest, s.schedule ≠ .engine :: rest) ∧ s.schedule ≠ [] ∧
      step s = .next s' :=
  ⟨{ seventeen 5 with schedule := [rd64 .status], skey := [0x00] },
    { seventeen 5 with schedule := [rd64 .status], skey := [0xFF] }, _,
    fun h => absurd (congrArg State.skey h) (by decide),
    ⟨rfl, rfl, ⟨rfl, rfl, rfl, rfl, rfl⟩, ⟨rfl, rfl, rfl⟩, ⟨rfl, rfl, rfl, rfl, rfl⟩, rfl, rfl, rfl⟩,
    fun _ h => by simp [rd64] at h, fun h => by simp at h, rfl⟩

/-- Two states that differ in a key, in which FEVAL completes. -/
theorem witness_secrets_command :
    ∃ s t s' t' : State, s ≠ t ∧ s.SameButSecrets t ∧ s.primOk = t.primOk ∧ exec .feval s = .next s' ∧
      exec .feval t = .next t' :=
  ⟨{ seventeen 5 with skey := [0x00] }, { seventeen 5 with skey := [0xFF] }, _, _,
    fun h => absurd (congrArg State.skey h) (by decide),
    ⟨rfl, rfl, ⟨rfl, rfl, rfl, rfl, rfl⟩, ⟨rfl, rfl, rfl⟩, ⟨rfl, rfl, rfl, rfl, rfl⟩, rfl, rfl, rfl⟩, rfl, rfl, rfl⟩

end Sys2Proof.Tests
end

section
/-! The register window by address: which register holds an offset, which offsets a write can act on and which a read
can show, and the statements about constant, reserved and control registers (spec/10_state.md sections 1 and 3). -/

namespace Sys2Proof.Machine

variable {s t : State} {r q : Reg} {offset size : Nat}

/-! ### The register map -/

theorem Reg.bytes_le (r : Reg) : r.bytes ≤ 8 := by
  unfold Reg.bytes
  split <;> decide

theorem Reg.bytes_pos (r : Reg) : 0 < r.bytes := by
  unfold Reg.bytes
  split <;> decide

theorem Reg.offset_injective : Function.Injective Reg.offset := fun r q h =>
  List.inj_on_of_nodup_map (f := Reg.offset) (l := Reg.all) (by decide) r.mem_all q.mem_all h

/-- No two registers share a byte: each has a doubleword of its own. -/
theorem Reg.eq_of_hold_same (hr : r.offset ≤ offset ∧ offset < r.offset + r.bytes)
    (hq : q.offset ≤ offset ∧ offset < q.offset + q.bytes) : r = q := by
  apply Reg.offset_injective
  have := r.offset_aligned
  have := q.offset_aligned
  have := r.bytes_le
  have := q.bytes_le
  omega

theorem regAt_eq_some_iff : regAt offset = some r ↔ r.offset ≤ offset ∧ offset < r.offset + r.bytes := by
  refine ⟨regAt_holds, fun h => ?_⟩
  cases hq : regAt offset with
  | some q => rw [Reg.eq_of_hold_same (regAt_holds hq) h]
  | none =>
    have unheld := List.find?_eq_none.mp hq r r.mem_all
    simp [Reg.holds, h] at unheld

@[simp] theorem regAt_offset (r : Reg) : regAt r.offset = some r :=
  regAt_eq_some_iff.mpr ⟨le_rfl, Nat.lt_add_of_pos_right r.bytes_pos⟩

/-! ### Legal accesses -/

theorem legalAccess_iff :
    legalAccess offset size = true ↔ (size = 4 ∨ size = 8) ∧ offset % size = 0 ∧ offset + size ≤ 0x200 := by
  simp only [legalAccess, Bool.and_eq_true, Bool.or_eq_true, beq_iff_eq, decide_eq_true_eq, and_assoc]
  exact Iff.rfl

/-- The 8-byte access at a register's offset is legal, at CMD's too. -/
theorem legalAccess_offset (r : Reg) : legalAccess r.offset 8 = true := by
  have inWindow : r.offset + 8 ≤ 0x200 := by
    cases r with
    | key j => have := j.isLt; simp only [Reg.offset]; omega
    | _ => decide
  exact legalAccess_iff.mpr ⟨.inr rfl, r.offset_aligned, inWindow⟩

/-! ### Reads -/

@[simp] theorem State.doublewordAt_offset (s : State) (r : Reg) : s.doublewordAt r.offset = s.readReg r := by
  simp [State.doublewordAt]

/-- An 8-byte read at a register's offset gives all of the register. -/
theorem State.memRead_offset (s : State) (r : Reg) : s.memRead r.offset 8 = .readData (s.readReg r) := by
  simp [State.memRead, legalAccess_offset, readLanes_full]

@[simp] theorem readLanes_zero (offset size : Nat) : readLanes offset size 0#64 = 0#64 := by simp [readLanes]

theorem State.memRead_of_doublewordAt_zero (hl : legalAccess offset size = true) (h : s.doublewordAt offset = 0) :
    s.memRead offset size = .readData 0 := by
  simp [State.memRead, hl, h]

/-- The registers that read as something lie at 0x008 to 0x027 and at 0x040 to 0x0A7. -/
theorem State.readReg_eq_zero (s : State) (held : r.offset ≤ offset ∧ offset < r.offset + r.bytes)
    (hlow : ¬ (0x008 ≤ offset ∧ offset < 0x028)) (hmid : ¬ (0x040 ≤ offset ∧ offset < 0x0A8)) : s.readReg r = 0 := by
  cases r with
  | cmd | key j => rfl
  | _ => simp only [Reg.offset, Reg.bytes, reduceCtorEq, if_false] at held; omega

theorem State.doublewordAt_eq_zero (s : State) (hlow : ¬ (0x008 ≤ offset ∧ offset < 0x028))
    (hmid : ¬ (0x040 ≤ offset ∧ offset < 0x0A8)) : s.doublewordAt offset = 0 := by
  unfold State.doublewordAt
  split
  · next r hr => exact s.readReg_eq_zero (regAt_holds hr) hlow hmid
  · rfl

/-! ### Writes that are ignored -/

/-- The registers a host write can act on (R67): CMD, STATUS, CTRL and the operand registers. -/
def Reg.isWritable (r : Reg) : Bool := r == .cmd || r == .status || r == .ctrl || r.isOperand

theorem State.writeEffect_of_not_writable (s : State) (size : Nat) (data : Word)
    (h : ∀ r, regAt offset = some r → r.isWritable = false) : s.writeEffect offset size data = s := by
  cases hreg : regAt offset with
  | none => simp [State.writeEffect, hreg]
  | some r =>
    have readOnly := h r hreg
    cases r with
    | cmd | status | ctrl | domainSizeIn | keyLen | valueIn | fSource | fRound | key j => cases readOnly
    | _ => simp [State.writeEffect, hreg, Reg.isOperand]

/-- The registers a write can act on lie at 0x000, 0x008 to 0x017 and in the operand space. -/
theorem Reg.isWritable_range (hw : r.isWritable = true) (held : r.offset ≤ offset ∧ offset < r.offset + r.bytes) :
    offset < 0x004 ∨ (0x008 ≤ offset ∧ offset < 0x018) ∨ (0x040 ≤ offset ∧ offset < 0x058) ∨
      (0x060 ≤ offset ∧ offset < 0x070) ∨ (0x100 ≤ offset ∧ offset < 0x140) := by
  have := r.bytes_le
  cases r with
  | cmd => exact .inl (by simpa [Reg.offset, Reg.bytes] using held)
  | id | params | valueOut | fBit | passCount | cfgDomainSize | cfgSourceBits | cfgTargetBits | cfgDomainBits
  | cfgRounds => cases hw
  | key j => have := j.isLt; simp only [Reg.offset] at held; omega
  | _ => simp only [Reg.offset] at held; omega

theorem State.memWrite_legal (s : State) (data : Word) (hl : legalAccess offset size = true) :
    s.memWrite offset size data = (.writeDone, s.writeEffect offset size data) := by
  simp [State.memWrite, hl]

/-- Outside the bytes of the writable registers a write changes nothing, legal or not, whatever BUSY is. -/
theorem State.memWrite_ignored (s : State) (size : Nat) (data : Word)
    (h : ¬ (offset < 0x004 ∨ (0x008 ≤ offset ∧ offset < 0x018) ∨ (0x040 ≤ offset ∧ offset < 0x058) ∨
      (0x060 ≤ offset ∧ offset < 0x070) ∨ (0x100 ≤ offset ∧ offset < 0x140))) :
    (s.memWrite offset size data).2 = s := by
  have readOnly : ∀ r, regAt offset = some r → r.isWritable = false := fun r hr =>
    Bool.eq_false_iff.mpr fun hw => h (Reg.isWritable_range hw (regAt_holds hr))
  unfold State.memWrite
  split
  · exact s.writeEffect_of_not_writable size data readOnly
  · rfl

/-! ### The two constants -/

theorem toNat_append_eq_add {m n : Nat} (x : BitVec m) (y : BitVec n) :
    (x ++ y).toNat = x.toNat * 2 ^ n + y.toNat := by
  rw [BitVec.toNat_append, ← Nat.shiftLeft_add_eq_or_of_lt y.isLt, Nat.shiftLeft_eq]

/-- R28: each legal size fits its byte of PARAMS, so no field loses a bit. -/
theorem paramsWord_toNat {p : Primitives} (hp : p.Legal) :
    (paramsWord p).toNat =
      63 + 2 ^ 8 * p.keyBytes + 2 ^ 16 * p.blockBytes + 2 ^ 24 * p.digestBytes + 2 ^ 32 * 64 := by
  obtain ⟨hkey, hblock, hdigest⟩ := hp
  simp only [paramsWord, Config.rawKeyMax, Config.maxDomainBits, toNat_append_eq_add, BitVec.ofNat_eq_ofNat,
    BitVec.toNat_ofNat]
  omega

/-- Settles O44: both registers read through the map; no writable register lies at 0x018 to 0x027. -/
theorem idAndParamsAreConstants : Obligations.IdAndParamsAreConstants := by
  intro s
  refine ⟨?_, ?_, fun offset size data hlo hhi => s.memWrite_ignored size data (by omega), fun p hk hb hd => ?_⟩
  · exact congrArg BusReply.data (s.memRead_offset .id)
  · have read : (s.memRead 0x020 8).data = paramsWord Config.hardware :=
      congrArg BusReply.data (s.memRead_offset .params)
    rw [read]
    exact paramsWord_toNat hardware_legal
  · rw [paramsWord, hk, hb, hd]
    rfl

/-! ### Reserved, read-only and write-only space -/

/-- Settles O45: reserved and read-only offsets lie outside the writable registers, reserved and write-only ones outside
the readable registers. -/
theorem reservedReadOnlyAndWriteOnlySpace : Obligations.ReservedReadOnlyAndWriteOnlySpace := by
  intro s offset size data hl
  have reads_zero (hlow : ¬ (0x008 ≤ offset ∧ offset < 0x028)) (hmid : ¬ (0x040 ≤ offset ∧ offset < 0x0A8)) :=
    State.memRead_of_doublewordAt_zero hl (s.doublewordAt_eq_zero hlow hmid)
  refine ⟨fun reserved => ⟨?_, ?_⟩, fun readOnly => ?_, fun writeOnly => ?_⟩
  · exact reads_zero (by omega) (by omega)
  · exact s.memWrite_ignored size data (by omega)
  · exact s.memWrite_ignored size data (by omega)
  · exact reads_zero (by omega) (by omega)

/-! ### The control register -/

/-- An access that starts at a register's first byte reaches its low 32 bits (R63). -/
theorem laneMask_getLsbD_low {b : Nat} (halign : offset % 8 = 0) (hb : b < 32) :
    (laneMask offset size).getLsbD b = true := by
  have inWord : b < 64 := by omega
  unfold laneMask
  split
  · exact (BitVec.getLsbD_allOnes (v := 64)).trans (decide_eq_true inWord)
  · rw [if_neg (by omega)]
    have low : (0x00000000FFFFFFFF : Word) = (BitVec.allOnes 32).setWidth 64 := rfl
    rw [low, BitVec.getLsbD_setWidth, BitVec.getLsbD_allOnes]
    simp [inWord, hb]

theorem mergeLanes_getLsbD_low {b : Nat} (old data : Word) (halign : offset % 8 = 0) (hb : b < 32) :
    (mergeLanes offset size old data).getLsbD b = data.getLsbD b := by
  have notUpper : ¬ offset % 8 = 4 := by omega
  simp [mergeLanes, laneData, laneMask_getLsbD_low halign hb, notUpper]

theorem laneMask_getLsbD_upper {b : Nat} (hupper : offset % 8 = 4) (hb : b < 32) :
    (laneMask offset 4).getLsbD b = false := by
  have mask : laneMask offset 4 = BitVec.allOnes 32 ++ (0 : BitVec 32) := by
    rw [laneMask, if_neg (by decide), if_pos hupper]
    rfl
  rw [mask, BitVec.getLsbD_append, if_pos hb]
  exact BitVec.getLsbD_zero

/-- A 4-byte write to the upper half of a register keeps its low 32 bits (R63). -/
theorem mergeLanes_getLsbD_upper {b : Nat} (old data : Word) (hupper : offset % 8 = 4) (hb : b < 32) :
    (mergeLanes offset 4 old data).getLsbD b = old.getLsbD b := by
  have inWord : b < 64 := by omega
  simp only [mergeLanes, laneData, BitVec.getLsbD_or, BitVec.getLsbD_and, BitVec.getLsbD_not,
    laneMask_getLsbD_upper hupper hb]
  simp [inWord]

theorem State.writeEffect_ctrl (s : State) (size : Nat) (data : Word) (h : regAt offset = some .ctrl) :
    s.writeEffect offset size data =
      { s with ctrlIE := (mergeLanes offset size (ctrlWord s.ctrlIE) data).getLsbD 0 } := by
  simp [State.writeEffect, h]

theorem ctrlWord_getLsbD_zero (ie : Bool) : (ctrlWord ie).getLsbD 0 = ie := by cases ie <;> rfl

theorem ctrlWord_toNat (ie : Bool) : (ctrlWord ie).toNat = ie.toNat := by cases ie <;> rfl

/-- R26: a write that reaches bit 0 of CTRL stores it in IE, whatever BUSY is. -/
theorem State.memWrite_ctrl (s : State) (data : Word) (hsize : size = 4 ∨ size = 8) :
    (s.memWrite 0x010 size data).2 = { s with ctrlIE := data.getLsbD 0 } := by
  have legal : legalAccess 0x010 size = true := by obtain rfl | rfl := hsize <;> decide
  have held : regAt 0x010 = some .ctrl := regAt_offset .ctrl
  rw [s.memWrite_legal data legal, s.writeEffect_ctrl size data held,
    mergeLanes_getLsbD_low _ _ rfl (by decide)]

theorem State.writeEffect_ctrl_upper (s : State) (data : Word) : s.writeEffect 0x014 4 data = s := by
  have held : regAt 0x014 = some .ctrl := regAt_eq_some_iff.mpr (by decide)
  rw [s.writeEffect_ctrl 4 data held, mergeLanes_getLsbD_upper _ _ rfl (by decide),
    ctrlWord_getLsbD_zero]

theorem State.writeOperand_ctrlIE (s : State) (r : Reg) (offset size : Nat) (data : Word) :
    (s.writeOperand r offset size data).ctrlIE = s.ctrlIE := by
  unfold State.writeOperand
  split <;> simp

theorem State.writeCmd_ctrlIE (s : State) (w : CmdWord) : (s.writeCmd w).ctrlIE = s.ctrlIE := by
  unfold State.writeCmd
  split <;> simp

/-- A write that reaches another register, or none, keeps IE. -/
theorem State.writeEffect_ctrlIE (s : State) (size : Nat) (data : Word) (h : regAt offset ≠ some .ctrl) :
    (s.writeEffect offset size data).ctrlIE = s.ctrlIE := by
  unfold State.writeEffect
  split
  · rfl
  · exact s.writeCmd_ctrlIE _
  · rfl
  · next hctrl => exact absurd hctrl h
  · split
    · exact s.writeOperand_ctrlIE _ _ _ _
    · rfl

/-- Of the legal writes only those at 0x010 can change IE: the others that reach CTRL reach its upper half. -/
theorem hostAccess_ctrlIE {a : Access} (h : hostAccess a s = .next t)
    (hne : ∀ size data, a ≠ .write 0x010 size data) : t.ctrlIE = s.ctrlIE := by
  obtain ⟨offset, size, rfl, hl, rfl⟩ | ⟨offset, size, data, rfl, hl, rfl⟩ := hostAccess_next h
  · rfl
  · by_cases hctrl : regAt offset = some .ctrl
    · have notLow : offset ≠ 0x010 := fun heq => hne size data (by rw [heq])
      have held : 0x010 ≤ offset ∧ offset < 0x018 := regAt_holds hctrl
      obtain ⟨rfl, rfl⟩ : offset = 0x014 ∧ size = 4 := by
        obtain ⟨rfl | rfl, aligned, -⟩ := legalAccess_iff.mp hl <;> omega
      have kept : (s.writeEffect 0x014 4 data).ctrlIE = s.ctrlIE := by rw [s.writeEffect_ctrl_upper data]
      exact kept
    · exact s.writeEffect_ctrlIE size data hctrl

/-- No command changes IE, however it ends. -/
theorem exec_ctrlIE {i : Instr} (h : exec i s = .next t) : t.ctrlIE = s.ctrlIE := by
  cases i with
  | config =>
    have answer : execConfig s = .next t := h
    obtain ⟨code, -, -, hc⟩ | ⟨-, hc⟩ | ⟨-, -, -, -, hc⟩ := execConfig_cases s <;>
      cases hc.symm.trans answer <;> rfl
  | encrypt => obtain ⟨-, rfl⟩ | ⟨-, -, rfl⟩ | ⟨-, -, c, p, -, rfl⟩ := execEncrypt_cases h <;> rfl
  | decrypt => obtain ⟨-, rfl⟩ | ⟨-, -, rfl⟩ | ⟨-, -, c, p, -, rfl⟩ := execDecrypt_cases h <;> rfl
  | feval => obtain ⟨-, rfl⟩ | ⟨-, rfl⟩ := execFeval_cases h <;> rfl
  | zeroize => rw [execZeroize_next h]; rfl

theorem engineStep_ctrlIE (h : engineStep s = .next t) : t.ctrlIE = s.ctrlIE := by
  obtain ⟨-, rfl⟩ | ⟨w, i, -, -, hexec⟩ | ⟨w, e, -, -, rfl⟩ := engineStep_cases h
  · rfl
  · exact exec_ctrlIE hexec
  · rfl

/-- R26: of all turns only a reset and a write at 0x010 can change IE. -/
theorem step_ctrlIE (h : step s = .next t) (hreset : ∀ rest, s.schedule ≠ .reset :: rest)
    (hwrite : ∀ size data rest, s.schedule ≠ .host (.write 0x010 size data) :: rest) : t.ctrlIE = s.ctrlIE := by
  obtain ⟨-, hengine⟩ | ⟨rest, -, hengine⟩ | ⟨rest, hs, -⟩ | ⟨a, rest, hs, haccess⟩ := step_cases h
  · exact engineStep_ctrlIE hengine
  · exact (engineStep_ctrlIE hengine :)
  · exact absurd hs (hreset rest)
  · have notLow : ∀ size data, a ≠ .write 0x010 size data := fun size data ha =>
      hwrite size data rest (by rw [hs, ha])
    exact (hostAccess_ctrlIE haccess notLow :)

/-- Settles O51: from what each write at CTRL stores and from the step's frame for IE. -/
theorem ctrlChangesByWritesAndResetOnly : Obligations.CtrlChangesByWritesAndResetOnly := by
  refine ⟨fun s size data => ⟨s.memWrite_ctrl data, ?_, ?_⟩, fun i s t => exec_ctrlIE,
    fun s => s.applyReset_ctrlIE, fun s t => step_ctrlIE⟩
  · rw [s.memWrite_legal data (by decide)]
    exact s.writeEffect_ctrl_upper data
  · have read : (s.memRead 0x010 8).data = ctrlWord s.ctrlIE := congrArg BusReply.data (s.memRead_offset .ctrl)
    rw [read, ctrlWord_toNat]

end Sys2Proof.Machine
end

section
/-! The bytes and bits of the register window: which bits of a register an access reaches, what a read returns of them,
what an operand write stores in them and leaves alone, and the key buffer as bytes (spec/20_memory.md R61 to R68). -/

namespace Sys2Proof.Machine

variable {s t : State} {r q : Reg} {offset size : Nat}

/-! ### Legal accesses -/

theorem State.memRead_legal (s : State) (hl : legalAccess offset size = true) :
    s.memRead offset size = .readData (readLanes offset size (s.doublewordAt offset)) := by
  simp [State.memRead, hl]

/-- Settles O40: both directions turn on the one test of legality (R61). -/
theorem onlyLegalAccessesAreAnswered : Obligations.OnlyLegalAccessesAreAnswered := by
  intro s offset size data
  rw [← legalAccess_iff]
  refine ⟨fun illegal => ?_, fun legal => ?_⟩
  · simp [State.memRead, State.memWrite, hostAccess, illegal, BusReply.data]
  · simp [State.memRead, State.memWrite, hostAccess, legal]

/-- The three places of a legal access in its doubleword: all of it, its low half, or its high half. -/
theorem legalAccess_place (hl : legalAccess offset size = true) :
    (size = 8 ∧ offset % 8 = 0) ∨ (size = 4 ∧ offset % 8 = 0) ∨ (size = 4 ∧ offset % 8 = 4) := by
  obtain ⟨rfl | rfl, aligned, -⟩ := legalAccess_iff.mp hl <;> omega

/-! ### The bits an access reaches -/

/-- R63: an access reaches the bits of its own bytes in the register. -/
theorem laneMask_getLsbD (hl : legalAccess offset size = true) (b : Nat) :
    (laneMask offset size).getLsbD b = decide (8 * (offset % 8) ≤ b ∧ b < 8 * (offset % 8) + 8 * size) := by
  obtain ⟨rfl, h0⟩ | ⟨rfl, h0⟩ | ⟨rfl, h4⟩ := legalAccess_place hl
  · have whole : laneMask offset 8 = BitVec.allOnes 64 := rfl
    rw [whole, BitVec.getLsbD_allOnes, h0]
    simp
  · have low : laneMask offset 4 = (BitVec.allOnes 32).setWidth 64 := by
      rw [laneMask, if_neg (by decide), if_neg (by omega)]
      rfl
    rw [low, BitVec.getLsbD_setWidth, BitVec.getLsbD_allOnes, h0, ← Bool.decide_and]
    exact decide_eq_decide.mpr (by omega)
  · have high : laneMask offset 4 = BitVec.allOnes 32 ++ (0 : BitVec 32) := by
      rw [laneMask, if_neg (by decide), if_pos h4]
      rfl
    rw [high, BitVec.getLsbD_append, BitVec.getLsbD_allOnes, h4]
    by_cases hb : b < 32
    · rw [if_pos hb, decide_eq_false (by omega)]
      exact BitVec.getLsbD_zero
    · rw [if_neg hb]
      exact decide_eq_decide.mpr (by omega)

/-- On the bits the access reaches the placed data is the data shifted to the access's place. -/
theorem laneData_getLsbD (hl : legalAccess offset size = true) (data : Word) {b : Nat} (hb : b < 64)
    (reached : 8 * (offset % 8) ≤ b ∧ b < 8 * (offset % 8) + 8 * size) :
    (laneData offset size data).getLsbD b = data.getLsbD (b - 8 * (offset % 8)) := by
  rw [laneData, BitVec.getLsbD_and, laneMask_getLsbD hl, decide_eq_true reached, Bool.and_true]
  obtain ⟨rfl, h0⟩ | ⟨rfl, h0⟩ | ⟨rfl, h4⟩ := legalAccess_place hl
  · simp [h0]
  · simp [h0]
  · have notBelow : ¬ b < 32 := by omega
    rw [if_neg (by decide), if_pos h4, BitVec.getLsbD_shiftLeft, decide_eq_true hb, decide_eq_false notBelow, h4]
    rfl

/-- R63: a write takes each bit of the register from the placed data or leaves it. -/
theorem mergeLanes_getLsbD (old data : Word) {b : Nat} (hb : b < 64) :
    (mergeLanes offset size old data).getLsbD b =
      if (laneMask offset size).getLsbD b then (laneData offset size data).getLsbD b else old.getLsbD b := by
  simp only [mergeLanes, laneData, BitVec.getLsbD_or, BitVec.getLsbD_and, BitVec.getLsbD_not]
  cases (laneMask offset size).getLsbD b <;> simp [hb]

theorem mergeLanes_getLsbD_legal (hl : legalAccess offset size = true) (old data : Word) {b : Nat} (hb : b < 64) :
    (mergeLanes offset size old data).getLsbD b =
      if 8 * (offset % 8) ≤ b ∧ b < 8 * (offset % 8) + 8 * size then data.getLsbD (b - 8 * (offset % 8))
      else old.getLsbD b := by
  simp only [mergeLanes_getLsbD _ _ hb, laneMask_getLsbD hl, decide_eq_true_iff]
  split
  · next reached => exact laneData_getLsbD hl data hb reached
  · rfl

/-- R63, R64: a read returns the bits it reaches, from bit 0 up, with zeros above them. -/
theorem readLanes_getLsbD (hl : legalAccess offset size = true) (value : Word) (b : Nat) :
    (readLanes offset size value).getLsbD b = (decide (b < 8 * size) && value.getLsbD (8 * (offset % 8) + b)) := by
  obtain ⟨rfl, h0⟩ | ⟨rfl, h0⟩ | ⟨rfl, h4⟩ := legalAccess_place hl
  · rw [readLanes_full, h0, Nat.mul_zero, Nat.zero_add]
    by_cases hb : b < 64
    · simp [hb]
    · simp [hb, BitVec.getLsbD_of_ge value b (by omega)]
  · have masked : readLanes offset 4 value = value &&& laneMask offset 4 := by simp [readLanes, laneMask, h0]
    rw [masked, BitVec.getLsbD_and, laneMask_getLsbD hl, h0, Bool.and_comm]
    simp
  · simp only [readLanes, h4]
    by_cases hb : b < 32
    · simp [hb]
    · simp [hb, BitVec.getLsbD_of_ge value (32 + b) (by omega)]

/-! ### The window as bytes -/

/-- The eight bytes from a register's offset read as the register; above CMD's four they are zero, as CMD is. -/
theorem State.doublewordAt_of_mem (s : State) (hlo : r.offset ≤ offset) (hhi : offset < r.offset + 8) :
    s.doublewordAt offset = s.readReg r := by
  by_cases hcmd : r = .cmd
  · subst hcmd
    simp only [Reg.offset] at hhi
    exact s.doublewordAt_eq_zero (by omega) (by omega)
  · have held : regAt offset = some r := regAt_eq_some_iff.mpr ⟨hlo, by simpa [Reg.bytes, hcmd] using hhi⟩
    simp [State.doublewordAt, held]

theorem State.doublewordAt_congr_of_regAt (s : State) {o o' : Nat} (held : regAt o = some r) (same : o / 8 = o' / 8) :
    s.doublewordAt o = s.doublewordAt o' := by
  have bounds := regAt_holds held
  have := r.bytes_le
  have := r.offset_aligned
  rw [s.doublewordAt_of_mem (r := r) (by omega) (by omega), s.doublewordAt_of_mem (r := r) (by omega) (by omega)]

/-- All bytes of one aligned doubleword come from one 64-bit value. -/
theorem State.doublewordAt_congr (s : State) {o o' : Nat} (same : o / 8 = o' / 8) :
    s.doublewordAt o = s.doublewordAt o' := by
  cases h : regAt o with
  | some r => exact s.doublewordAt_congr_of_regAt h same
  | none =>
    cases h' : regAt o' with
    | some r => exact (s.doublewordAt_congr_of_regAt h' same.symm).symm
    | none => simp [State.doublewordAt, h, h']

theorem State.windowByte_offset (s : State) (r : Reg) {i : Nat} (hi : i < 8) :
    s.windowByte (r.offset + i) = (s.readReg r).extractLsb' (8 * i) 8 := by
  have place : (r.offset + i) % 8 = i := by have := r.offset_aligned; omega
  rw [State.windowByte, s.doublewordAt_of_mem (r := r) (by omega) (by omega), place, byteOfWord]

/-- R64: byte `i` of what a legal read returns is the window's byte at `offset + i`, with zeros above the access. -/
theorem State.memRead_byte (s : State) (hl : legalAccess offset size = true) (i : Nat) :
    (s.memRead offset size).data.extractLsb' (8 * i) 8 = if i < size then s.windowByte (offset + i) else 0 := by
  rw [s.memRead_legal hl, BusReply.data]
  apply BitVec.eq_of_getLsbD_eq
  intro b hb
  rw [BitVec.getLsbD_extractLsb', readLanes_getLsbD hl]
  by_cases inside : i < size
  · have place : (offset + i) % 8 = offset % 8 + i ∧ (offset + i) / 8 = offset / 8 := by
      have := legalAccess_place hl
      omega
    rw [if_pos inside, State.windowByte, s.doublewordAt_congr place.2, place.1, byteOfWord, BitVec.getLsbD_extractLsb',
      decide_eq_true (by omega : 8 * i + b < 8 * size), Bool.true_and, Nat.mul_add, Nat.add_assoc]
  · simp [inside, show ¬ 8 * i + b < 8 * size by omega]

theorem State.memRead_offset_data (s : State) (r : Reg) : (s.memRead r.offset 8).data = s.readReg r :=
  congrArg BusReply.data (s.memRead_offset r)

/-- Settles O42: a read's bytes are the window's, and a whole register's are its value's. -/
theorem readsReturnLittleEndianBytes : Obligations.ReadsReturnLittleEndianBytes := by
  refine ⟨fun s r i hi => s.windowByte_offset r hi, fun s offset size i hl _ => s.memRead_byte hl i, fun s => ?_⟩
  have keyLen : (s.memRead 0x048 8).data.toNat = s.keyLen.toNat := by
    rw [show (s.memRead 0x048 8).data = s.keyLen.setWidth 64 from s.memRead_offset_data .keyLen]
    exact BitVec.toNat_setWidth_of_le (by decide)
  have fBit : (s.memRead 0x070 8).data.toNat = s.fBit.toNat := by
    rw [show (s.memRead 0x070 8).data = (BitVec.ofBool s.fBit).setWidth 64 from s.memRead_offset_data .fBit]
    cases s.fBit <;> rfl
  exact ⟨s.memRead_offset_data .domainSizeIn, keyLen, s.memRead_offset_data .valueIn, s.memRead_offset_data .valueOut,
    s.memRead_offset_data .fSource, s.memRead_offset_data .fRound, fBit, s.memRead_offset_data .passCount,
    s.memRead_offset_data .cfgDomainSize, s.memRead_offset_data .cfgSourceBits, s.memRead_offset_data .cfgTargetBits,
    s.memRead_offset_data .cfgDomainBits, s.memRead_offset_data .cfgRounds⟩

/-! ### Stored operands -/

/-- The bits a register keeps of what is stored in it: KEY_LEN bits 7:0 only, the others all (R30). -/
def Reg.keepsBit (r : Reg) (b : Nat) : Bool := r != .keyLen || decide (b < 8)

theorem Reg.keepsBit_eq_false_iff {b : Nat} : r.keepsBit b = false ↔ r = .keyLen ∧ 8 ≤ b := by
  simp [Reg.keepsBit]

theorem State.operandHeld_storeOperand_getLsbD (s : State) (hr : r.isOperand = true) (w : Word) (b : Nat) :
    ((s.storeOperand r w).operandHeld r).getLsbD b = (r.keepsBit b && w.getLsbD b) := by
  cases r with
  | keyLen =>
    by_cases hb : b < 8
    · have inWord : b < 64 := by omega
      simp [State.operandHeld, State.storeOperand, Reg.keepsBit, hb, inWord]
    · simp [State.operandHeld, State.storeOperand, Reg.keepsBit, hb]
  | domainSizeIn | valueIn | fSource | fRound => rfl
  | key j => simp [State.operandHeld, State.storeOperand, Reg.keepsBit, Vector.get_eq_getElem]
  | _ => cases hr

theorem State.operandHeld_storeOperand_of_ne (s : State) (hne : q ≠ r) (w : Word) :
    (s.storeOperand r w).operandHeld q = s.operandHeld q := by
  cases q with
  | domainSizeIn => cases r with | domainSizeIn => exact absurd rfl hne | _ => rfl
  | keyLen => cases r with | keyLen => exact absurd rfl hne | _ => rfl
  | valueIn => cases r with | valueIn => exact absurd rfl hne | _ => rfl
  | fSource => cases r with | fSource => exact absurd rfl hne | _ => rfl
  | fRound => cases r with | fRound => exact absurd rfl hne | _ => rfl
  | key k =>
    cases r with
    | key j =>
      have apart : j.val ≠ k.val := fun h => hne (congrArg Reg.key (Fin.ext h.symm))
      simp [State.operandHeld, State.storeOperand, Vector.get_eq_getElem, apart]
    | _ => rfl
  | _ => rfl

/-- What is stored depends on the kept bits only. -/
theorem State.storeOperand_congr (s : State) {w w' : Word}
    (h : ∀ b, b < 64 → r.keepsBit b = true → w.getLsbD b = w'.getLsbD b) :
    s.storeOperand r w = s.storeOperand r w' := by
  by_cases hkey : r = .keyLen
  · subst hkey
    have low : w.setWidth 8 = w'.setWidth 8 := BitVec.eq_of_getLsbD_eq fun b hb => by
      simpa [hb] using h b (by omega) (by simp [Reg.keepsBit, hb])
    simp [State.storeOperand, low]
  · rw [BitVec.eq_of_getLsbD_eq fun b hb => h b hb (by simp [Reg.keepsBit, hkey])]

theorem State.storeOperand_storeOperand (s : State) (r : Reg) (v w : Word) :
    (s.storeOperand r v).storeOperand r w = s.storeOperand r w := by
  cases r with
  | key j => simp [State.storeOperand]
  | _ => rfl

/-! ### Operand writes -/

theorem State.memWrite_operand (s : State) (data : Word) (hbusy : s.status.busy = false) (hr : r.isOperand = true)
    (hl : legalAccess offset size = true) (held : regAt offset = some r) :
    (s.memWrite offset size data).2 = s.storeOperand r (mergeLanes offset size (s.operandHeld r) data) := by
  rw [s.memWrite_legal data hl, s.writeEffect_operand size data held hr, State.writeOperand]
  simp [hbusy]

theorem State.writeOperand_idempotent (s : State) (hr : r.isOperand = true) (offset size : Nat) (data : Word) :
    (s.writeOperand r offset size data).writeOperand r offset size data = s.writeOperand r offset size data := by
  by_cases hbusy : s.status.busy = true
  · simp [State.writeOperand, hbusy, State.noteDroppedWrite]
  · simp only [State.writeOperand, hbusy, if_false, Bool.false_eq_true, State.storeOperand_status,
      State.storeOperand_storeOperand]
    apply s.storeOperand_congr
    intro b hb kept
    simp only [mergeLanes_getLsbD _ _ hb, s.operandHeld_storeOperand_getLsbD hr, kept, Bool.true_and]
    split <;> rfl

/-- Settles O46: a read answers from fields that the noted reply leaves alone; a repeated operand write merges the same
data into bits that already hold it, or sets BUSYWR again. -/
theorem readsAndOperandWritesAreIdempotent : Obligations.ReadsAndOperandWritesAreIdempotent := by
  refine ⟨fun s t offset size h => ?_, fun s r offset size data hr held => ?_⟩
  · obtain ⟨_, _, hread, -, rfl⟩ | ⟨_, _, _, hwrite, -, -⟩ := hostAccess_next h
    · cases hread
      exact ⟨rfl, rfl⟩
    · cases hwrite
  · by_cases hl : legalAccess offset size = true
    · simp only [State.memWrite_legal _ data hl, State.writeEffect_operand _ size data held hr]
      exact s.writeOperand_idempotent hr offset size data
    · simp [State.memWrite, hl]

/-- Settles O47: the write stores the merged value, of which each bit is known, in this register alone. -/
theorem operandWritesChangeTheBitsTheyReach : Obligations.OperandWritesChangeTheBitsTheyReach := by
  intro s r offset size data hbusy hr hl hlo hhi
  have bytes : r.bytes = 8 := if_neg (by rintro rfl; cases hr)
  have held : regAt offset = some r := regAt_eq_some_iff.mpr ⟨hlo, by omega⟩
  have place : offset - r.offset = offset % 8 := by have := r.offset_aligned; omega
  simp only [s.memWrite_operand data hbusy hr hl held, place]
  refine ⟨fun b hb => ?_, fun q hne => s.operandHeld_storeOperand_of_ne hne _, s.storeOperand_frame r _⟩
  rw [s.operandHeld_storeOperand_getLsbD hr, mergeLanes_getLsbD_legal hl _ _ hb]
  by_cases cut : r = .keyLen ∧ 8 ≤ b
  · rw [if_pos cut, Reg.keepsBit_eq_false_iff.mpr cut, Bool.false_and]
  · rw [if_neg cut, eq_true_of_ne_false (mt Reg.keepsBit_eq_false_iff.mp cut), Bool.true_and]

/-! ### The key buffer as bytes -/

theorem State.rawKey_length (s : State) : s.rawKey.length = min s.keyLen.toNat 64 := by
  simp [State.rawKey, Config.rawKeyMax]

/-- R68: byte `m` of KEYj is byte `8j + m` of the buffer. -/
theorem keybufByte_eq (keybuf : Vector Word 8) (j : Fin 8) {m : Nat} (hm : m < 8) :
    keybufByte keybuf (8 * j.val + m) = (keybuf.get j).extractLsb' (8 * m) 8 := by
  have word : (8 * j.val + m) / 8 = j.val := by omega
  have byte : (8 * j.val + m) % 8 = m := by omega
  simp [keybufByte, word, byte, byteOfWord, Vector.get_eq_getElem]

theorem State.rawKey_getElem? (s : State) (j : Fin 8) {m : Nat} (hm : m < 8)
    (inKey : 8 * j.val + m < min s.keyLen.toNat 64) :
    s.rawKey[8 * j.val + m]? = some ((s.keybuf.get j).extractLsb' (8 * m) 8) := by
  rw [← keybufByte_eq s.keybuf j hm]
  simp [State.rawKey, Config.rawKeyMax, lt_min_iff.mp inKey]

/-- An 8-byte write at an idle block's operand register stores the data whole. -/
theorem State.memWrite_operand_full {data : Word} (hr : r.isOperand = true) (start : r.offset = offset)
    (hbusy : s.status.busy = false) : (s.memWrite offset 8 data).2 = s.storeOperand r data := by
  subst start
  rw [s.memWrite_operand data hbusy hr (legalAccess_offset r) (regAt_offset r), mergeLanes_full]

/-- Settles O10: the buffer's bytes are KEYj's, and a whole write of KEYj makes them the data's. -/
theorem rawKeyIsTheKeyBufferInByteOrder : Obligations.RawKeyIsTheKeyBufferInByteOrder := by
  refine ⟨fun s => ⟨s.rawKey_length, fun j m hm => s.rawKey_getElem? j hm⟩, fun s j v m hbusy hm inKey => ?_,
    fun s hbusy => ?_⟩
  · have stored : (s.storeOperand (.key j) v).keybuf.get j = v := by
      simp [State.storeOperand, Vector.get_eq_getElem]
    have byte := (s.storeOperand (.key j) v).rawKey_getElem? j hm inKey
    rwa [stored, ← State.memWrite_operand_full (r := .key j) rfl rfl hbusy] at byte
  · rw [State.memWrite_operand_full (r := .keyLen) (offset := 0x048) rfl rfl hbusy,
      State.memWrite_operand_full (r := .key 0) (offset := 0x100) rfl rfl,
      State.memWrite_operand_full (r := .key 1) (offset := 0x108) rfl rfl]
    · simp [State.rawKey, State.storeOperand, Config.rawKeyMax, List.range_succ, keybufByte, byteOfWord]
    · exact hbusy
    · exact hbusy

end Sys2Proof.Machine
end

section
/-! Command words: the two fields as arithmetic on the word, what the decoder answers in each of its cases, and the
encoder as its inverse on words and on bytes (spec/30_encoding.md R80 to R83, R88). -/

namespace Sys2Proof

/-! ### The fields of a word -/

theorem CmdWord.opcode_toNat (w : CmdWord) : (CmdWord.opcode w).toNat = w.toNat % 2 ^ 8 := by
  simp [CmdWord.opcode]

theorem CmdWord.reserved_toNat (w : CmdWord) : (CmdWord.reserved w).toNat = w.toNat / 2 ^ 8 := by
  rw [CmdWord.reserved, BitVec.extractLsb'_toNat, Nat.shiftRight_eq_div_pow]
  exact Nat.mod_eq_of_lt (by omega)

theorem CmdWord.reserved_eq_zero_iff (w : CmdWord) : CmdWord.reserved w = 0 ↔ w.toNat / 2 ^ 8 = 0 := by
  rw [← CmdWord.reserved_toNat]
  exact BitVec.toNat_eq

/-- R80: the two fields are the whole word. -/
theorem CmdWord.reserved_append_opcode (w : CmdWord) : CmdWord.reserved w ++ CmdWord.opcode w = w :=
  (BitVec.extractLsb'_append_extractLsb'_eq_extractLsb' (by decide)).trans BitVec.extractLsb'_eq_self

/-- A command's word has RSV = 0 and the command's opcode (R80, R81), and no other word has. -/
theorem eq_encode_iff {w : CmdWord} {i : Instr} :
    w = encode i ↔ CmdWord.reserved w = 0 ∧ CmdWord.opcode w = i.opcode := by
  constructor
  · rintro rfl
    cases i <;> exact ⟨rfl, rfl⟩
  · rintro ⟨hreserved, hopcode⟩
    rw [← CmdWord.reserved_append_opcode w, hreserved, hopcode, encode]

/-! ### The opcode table -/

/-- R81: each command has the one opcode that stands for it. -/
theorem opcodeCommand_eq_some_iff {op : Byte} {i : Instr} : opcodeCommand op = some i ↔ op = i.opcode := by
  constructor
  · intro h
    unfold opcodeCommand at h
    split_ifs at h <;> cases h <;> assumption
  · rintro rfl
    cases i <;> rfl

theorem exists_opcode_eq_iff (op : Byte) : (∃ i : Instr, op = i.opcode) ↔ op.toNat ∈ [1, 2, 3, 4, 5] := by
  constructor
  · rintro ⟨i, rfl⟩
    cases i <;> decide
  · intro h
    simp only [List.mem_cons, List.not_mem_nil, or_false] at h
    obtain h | h | h | h | h := h
    · exact ⟨.config, BitVec.eq_of_toNat_eq h⟩
    · exact ⟨.encrypt, BitVec.eq_of_toNat_eq h⟩
    · exact ⟨.decrypt, BitVec.eq_of_toNat_eq h⟩
    · exact ⟨.feval, BitVec.eq_of_toNat_eq h⟩
    · exact ⟨.zeroize, BitVec.eq_of_toNat_eq h⟩

/-! ### The decoder on words -/

theorem decode_of_reserved_ne_zero {w : CmdWord} (h : CmdWord.reserved w ≠ 0) : decode w = .error .reservedBits :=
  if_neg h

theorem decode_of_unassigned {w : CmdWord} (hreserved : CmdWord.reserved w = 0)
    (hopcode : opcodeCommand (CmdWord.opcode w) = none) : decode w = .error .unassignedOpcode := by
  simp [decode, hreserved, hopcode]

theorem decode_of_assigned {w : CmdWord} {i : Instr} (hreserved : CmdWord.reserved w = 0)
    (hopcode : opcodeCommand (CmdWord.opcode w) = some i) : decode w = .ok i := by
  simp [decode, hreserved, hopcode]

theorem decode_eq_ok_iff_fields {w : CmdWord} {i : Instr} :
    decode w = .ok i ↔ CmdWord.reserved w = 0 ∧ CmdWord.opcode w = i.opcode := by
  rw [← opcodeCommand_eq_some_iff]
  refine ⟨fun h => ?_, fun ⟨hreserved, hopcode⟩ => decode_of_assigned hreserved hopcode⟩
  by_cases hreserved : CmdWord.reserved w = 0
  · cases hopcode : opcodeCommand (CmdWord.opcode w) with
    | none => cases (decode_of_unassigned hreserved hopcode).symm.trans h
    | some j =>
      cases (decode_of_assigned hreserved hopcode).symm.trans h
      exact ⟨hreserved, rfl⟩
  · cases (decode_of_reserved_ne_zero hreserved).symm.trans h

/-- R82: each legal word is matched in full. -/
theorem decode_eq_ok_iff {w : CmdWord} {i : Instr} : decode w = .ok i ↔ w = encode i := by
  rw [decode_eq_ok_iff_fields, eq_encode_iff]

@[simp] theorem decode_encode (i : Instr) : decode (encode i) = .ok i := decode_eq_ok_iff.mpr rfl

/-- Settles O2: decoding asks the two fields separately, and together they are the word. -/
theorem legalCommandWordsAreTheFive : Obligations.LegalCommandWordsAreTheFive := by
  refine fun w => ⟨?_, fun i => decode_eq_ok_iff⟩
  simp only [decode_eq_ok_iff_fields, exists_and_left]
  rw [CmdWord.reserved_eq_zero_iff, exists_opcode_eq_iff, CmdWord.opcode_toNat]

/-- Settles O1: the table's words are the encoded commands, and each illegal word fails one of the two checks. -/
theorem opcodeTableWordsDecode : Obligations.OpcodeTableWordsDecode :=
  ⟨decode_encode .config, decode_encode .encrypt, decode_encode .decrypt, decode_encode .feval,
    decode_encode .zeroize, decode_of_unassigned rfl rfl, decode_of_unassigned rfl rfl, decode_of_unassigned rfl rfl,
    decode_of_reserved_ne_zero (by decide), decode_of_reserved_ne_zero (by decide)⟩

/-! ### The decoder on bytes -/

/-- R64: the four bytes of a word, lowest first, make up the word. -/
theorem wordOfBytes_extractLsb' (w : CmdWord) :
    wordOfBytes (w.extractLsb' 0 8) (w.extractLsb' 8 8) (w.extractLsb' 16 8) (w.extractLsb' 24 8) = w := by
  have upper : w.extractLsb' 24 8 ++ w.extractLsb' 16 8 = w.extractLsb' 16 16 :=
    BitVec.extractLsb'_append_extractLsb'_eq_extractLsb' (by decide)
  have reserved : w.extractLsb' 16 16 ++ w.extractLsb' 8 8 = CmdWord.reserved w :=
    BitVec.extractLsb'_append_extractLsb'_eq_extractLsb' (by decide)
  rw [wordOfBytes, upper, reserved]
  exact w.reserved_append_opcode

/-- A legal word's four bytes decode to its command, whatever follows them. -/
theorem decodeBytes_bytesOfWord_append {w : CmdWord} {i : Instr} (h : decode w = .ok i) (rest : List Byte) :
    decodeBytes (bytesOfWord w ++ rest) = .ok (i, rest) := by
  simp [decodeBytes, bytesOfWord, wordOfBytes_extractLsb', h]

/-- Settles O3: the encoded bytes make up the encoded word, which decodes to its command. -/
theorem encodedCommandsDecodeBack : Obligations.EncodedCommandsDecodeBack :=
  fun i rest => decodeBytes_bytesOfWord_append (decode_encode i) rest

end Sys2Proof
end

section
/-! The pure functions of the round function: the bit partition of the domain, the little-endian blocks and their XOR,
and f under the two keys (spec/40_round_function.md sections 1 to 5). -/

namespace Sys2Proof.Machine

/-! ### The bit partition -/

/-- R100: the exponent of `next_pow2(n)` is the ceiling of the binary logarithm; `next_pow2(0)` is 1 in the model. -/
theorem nextPow2_eq_pow_clog (n : Nat) : nextPow2 n = 2 ^ Nat.clog 2 n := by
  by_cases hn : n ≤ 1
  · rw [nextPow2, if_pos hn, Nat.clog_of_right_le_one hn, Nat.pow_zero]
  · have width : Nat.log2 (n - 1) + 1 = Nat.clog 2 n := eq_of_forall_ge_iff fun d => by
      rw [Nat.succ_le_iff, Nat.log2_lt (by omega), Nat.clog_le_iff_le_pow Nat.one_lt_two]
      omega
    rw [nextPow2, if_neg hn, width]

theorem intLog2_two_pow (e : Nat) : intLog2 (2 ^ e) = e := Nat.log2_two_pow

/-- Settles O5: the exponent of `next_pow2(n)` is the least `e` with `n <= 2^e`. -/
theorem nextPow2IsTheLeastPowerOfTwo : Obligations.NextPow2IsTheLeastPowerOfTwo := by
  refine ⟨fun n _ => ⟨⟨_, nextPow2_eq_pow_clog n⟩, ?_, fun e he => ?_⟩, by decide, by decide, by decide, by decide,
    fun n hlow hhigh => ?_, fun e => ?_⟩
  · rw [nextPow2_eq_pow_clog]
    exact Nat.le_pow_clog Nat.one_lt_two n
  · rw [nextPow2_eq_pow_clog]
    exact Nat.pow_le_pow_right two_pos (Nat.clog_le_of_le_pow he)
  · have width : Nat.clog 2 n = 64 :=
      le_antisymm (Nat.clog_le_of_le_pow hhigh.le) ((Nat.lt_clog_iff_pow_lt Nat.one_lt_two).mpr hlow)
    rw [nextPow2_eq_pow_clog, width]
  · rw [intLog2_two_pow, Nat.clog_pow 2 e Nat.one_lt_two]
    exact ⟨rfl, rfl⟩

theorem partition_sourceBits (n : Nat) : (partition n).sourceBits = ((partition n).domainBits : Int) - 1 := by
  simp only [partition, Config.targetBits]
  omega

theorem partition_domainBits (n : Nat) : (partition n).domainBits = Nat.clog 2 n := by
  simp [partition, nextPow2_eq_pow_clog, intLog2_two_pow]

/-- R104: db is the least width whose power of two covers the domain. -/
theorem partition_domainBits_le_iff (n d : Nat) : (partition n).domainBits ≤ d ↔ n ≤ 2 ^ d := by
  rw [partition_domainBits, Nat.clog_le_iff_le_pow Nat.one_lt_two]

/-- Settles O6: db is least, so `2^(db - 1) < n`, and the other clauses follow from db's values. -/
theorem partitionIsTheMinimalBitWidth : Obligations.PartitionIsTheMinimalBitWidth := by
  intro n hn
  have covers := partition_domainBits_le_iff n
  refine ⟨rfl, partition_sourceBits n, covers, ?_, fun hdb => ?_, ?_, covers 63⟩
  · have zero := covers 0
    rw [partition_sourceBits]
    omega
  · have notCovered : 2 ^ ((partition n).domainBits - 1) < n := by
      have := covers ((partition n).domainBits - 1)
      omega
    have double : 2 ^ (partition n).domainBits = 2 * 2 ^ ((partition n).domainBits - 1) :=
      (mul_pow_sub_one (by omega) 2).symm
    have covered : n ≤ 2 ^ (partition n).domainBits := (covers _).mp le_rfl
    omega
  · rintro e rfl
    rw [partition_domainBits, Nat.clog_pow 2 e Nat.one_lt_two]

/-! ### Blocks -/

theorem encodeLe_getElem? {bb i : Nat} (x : Nat) (hi : i < bb) :
    (encodeLe bb x)[i]? = some (if i ≤ 7 then BitVec.ofNat 8 (x >>> (8 * i)) else 0) := by
  simp [encodeLe, hi]

theorem encodeLe_succ (bb x : Nat) : ∃ rest, encodeLe (bb + 1) x = BitVec.ofNat 8 x :: rest :=
  ⟨_, by rw [encodeLe, List.range_succ_eq_map, List.map_cons]; rfl⟩

/-- A 64-bit value has zeros above byte 7, so R108's padding is the value's own bytes. -/
theorem encodeLe_of_lt {x : Nat} (hx : x < 2 ^ 64) (bb : Nat) :
    encodeLe bb x = (List.range bb).map fun i => BitVec.ofNat 8 (x >>> (8 * i)) := by
  refine List.map_congr_left fun i _ => ?_
  split
  · rfl
  · have padding : x >>> (8 * i) = 0 :=
      Nat.shiftRight_eq_zero _ _ (hx.trans_le (Nat.pow_le_pow_right two_pos (by omega)))
    rw [padding]
    rfl

/-- The lowest `k` bytes of a number, read back little-endian, are the number modulo `2^(8k)`. -/
theorem foldr_leBytes (k x : Nat) :
    ((List.range k).map fun i => BitVec.ofNat 8 (x >>> (8 * i))).foldr (fun b acc => b.toNat + 256 * acc) 0 =
      x % 2 ^ (8 * k) := by
  induction k generalizing x with
  | zero => simp [Nat.mod_one]
  | succ k ih =>
    have shift (i : Nat) : x >>> (8 * (i + 1)) = (x >>> 8) >>> (8 * i) := by
      rw [← Nat.shiftRight_add]
      congr 1
      omega
    have factor : 2 ^ (8 * (k + 1)) = 256 * 2 ^ (8 * k) := by rw [Nat.mul_succ, Nat.pow_add, Nat.mul_comm]
    simp only [List.range_succ_eq_map, List.map_cons, List.map_map, Function.comp_def, List.foldr_cons, shift, ih]
    rw [factor, Nat.mod_mul]
    simp [Nat.shiftRight_eq_div_pow]

/-- Settles O7: the block is the value's lowest bytes, and eight or more of them are all of a 64-bit value. -/
theorem encodeLeLosesNoBit : Obligations.EncodeLeLosesNoBit := by
  intro bb x hbb hx
  refine ⟨encodeLe_length bb x, fun i hi => ?_, fun i hi hlt => ?_, ?_⟩
  · rw [encodeLe_getElem? x (by omega), if_pos hi]
    simp [Nat.shiftRight_eq_div_pow]
  · rw [encodeLe_getElem? x hlt, if_neg (by omega)]
  · rw [encodeLe_of_lt hx, foldr_leBytes]
    exact Nat.mod_eq_of_lt (hx.trans_le (Nat.pow_le_pow_right two_pos (by omega)))

theorem xorBlocks_length {a b : List Byte} (h : a.length = b.length) : (xorBlocks a b).length = a.length := by
  simp [xorBlocks, h]

theorem xorBlocks_xorBlocks {a b : List Byte} (h : a.length = b.length) : xorBlocks (xorBlocks a b) b = a := by
  refine List.ext_getElem ?_ fun i _ _ => ?_
  · rw [xorBlocks_length ((xorBlocks_length h).trans h), xorBlocks_length h]
  · simp [xorBlocks]

/-- Settles O8: the bytes of the result are the XORs, and XOR with one byte twice cancels. -/
theorem xorBlocksIsByteWise : Obligations.XorBlocksIsByteWise :=
  fun _ _ h => ⟨xorBlocks_length h, fun i ha hb => by simp [xorBlocks, ha, hb], xorBlocks_xorBlocks h⟩

/-! ### The round function -/

theorem blockEncrypt_headD (p : Primitives) (key blk : List Byte) (hbb : 1 ≤ p.blockBytes) :
    (p.blockEncrypt key blk).headD 0 = p.encryptByte key blk 0 := by
  simp [Primitives.blockEncrypt, List.headD_eq_head?_getD, List.head?_range, Nat.ne_of_gt hbb]

/-- R110: RKEY encrypts the round, SKEY the masked source, and f is bit 0 of byte 0 of the target block. -/
theorem roundBit_eq (p : Primitives) (skey rkey : List Byte) (s r : Nat) (hbb : 1 ≤ p.blockBytes) :
    roundBit p skey rkey s r =
      (p.encryptByte skey
        (xorBlocks (encodeLe p.blockBytes s) (p.blockEncrypt rkey (encodeLe p.blockBytes r))) 0).getLsbD 0 := by
  rw [roundBit, blockEncrypt_headD p _ _ hbb]

/-- A cipher each of whose bytes is the block's own gives a whole block back. -/
theorem blockEncrypt_identity {p : Primitives} (hident : ∀ key blk i, p.encryptByte key blk i = blk.getD i 0)
    (key : List Byte) {blk : List Byte} (hlen : blk.length = p.blockBytes) : p.blockEncrypt key blk = blk := by
  refine List.ext_getElem ((blockEncrypt_length p key blk).trans hlen.symm) fun i _ hi => ?_
  simp [Primitives.blockEncrypt, hident, hi]

/-- Byte 0 of the XOR of two encoded blocks has the parity of the sum at bit 0. -/
theorem xorBlocks_encodeLe_bit_zero {bb : Nat} (hbb : 1 ≤ bb) (s r : Nat) :
    ((xorBlocks (encodeLe bb s) (encodeLe bb r)).getD 0 0).getLsbD 0 = ((s + r) % 2 == 1) := by
  obtain ⟨k, rfl⟩ := Nat.exists_eq_add_of_le' hbb
  obtain ⟨restS, hS⟩ := encodeLe_succ k s
  obtain ⟨restR, hR⟩ := encodeLe_succ k r
  have byteZero : (xorBlocks (encodeLe (k + 1) s) (encodeLe (k + 1) r)).getD 0 0 =
      BitVec.ofNat 8 s ^^^ BitVec.ofNat 8 r := by
    rw [hS, hR]
    rfl
  rw [byteZero, BitVec.getLsbD_xor, BitVec.getLsbD_ofNat, BitVec.getLsbD_ofNat, Nat.testBit_zero, Nat.testBit_zero]
  obtain hs | hs := Nat.mod_two_eq_zero_or_one s <;> obtain hr | hr := Nat.mod_two_eq_zero_or_one r <;>
    simp [hs, hr, Nat.add_mod]

/-- Settles O11: f by its definition, and two blocks that the cipher leaves as they are. -/
theorem roundFunctionUnderIdentityCipher : Obligations.RoundFunctionUnderIdentityCipher := by
  refine fun p skey rkey s r hbb => ⟨roundBit_eq p skey rkey s r hbb, fun hident => ?_⟩
  rw [roundBit_eq p skey rkey s r hbb, hident, blockEncrypt_identity hident rkey (encodeLe_length _ r)]
  exact xorBlocks_encodeLe_bit_zero hbb s r

end Sys2Proof.Machine
end

section
/-! CONFIG and FEVAL: the completion of each case, what it leaves of the state, and the statements about construction
and the round bit (spec/40_round_function.md sections 6 and 7). -/

namespace Sys2Proof.Machine

variable {s : State}

/-! ### The completions of CONFIG -/

/-- R113's two checks of the domain size pass for `1 <= N <= 2^63`: the second asks db <= 63. -/
theorem domainSize_passes_iff {n : Word} :
    n ≠ 0 ∧ ¬ (partition n.toNat).domainBits > Config.maxDomainBits ↔ 1 ≤ n.toNat ∧ n.toNat ≤ 2 ^ 63 := by
  have zero : n = 0 ↔ n.toNat = 0 := BitVec.toNat_eq
  have fits := partition_domainBits_le_iff n.toNat Config.maxDomainBits
  rw [not_lt, fits, ne_eq, zero, Nat.one_le_iff_ne_zero]
  rfl

theorem execConfig_of_illegal_size (h : s.domainSizeIn.toNat = 0 ∨ 2 ^ 63 < s.domainSizeIn.toNat) :
    execConfig s = .next (s.clearSecrets.clearKeybuf.completeErr .domainSize) := by
  unfold execConfig
  by_cases hzero : s.domainSizeIn = 0
  · rw [if_pos hzero]
  · have wide : (partition s.domainSizeIn.toNat).domainBits > Config.maxDomainBits := by
      by_contra fits
      have := domainSize_passes_iff.mp ⟨hzero, fits⟩
      omega
    rw [if_neg hzero, if_pos wide]

section LegalSize

variable (hlow : 1 ≤ s.domainSizeIn.toNat) (hhigh : s.domainSizeIn.toNat ≤ 2 ^ 63)

include hlow hhigh

theorem execConfig_of_long_key (hlen : Config.rawKeyMax < s.keyLen.toNat) :
    execConfig s = .next (s.clearSecrets.clearKeybuf.completeErr .keyLen) := by
  obtain ⟨hzero, fits⟩ := domainSize_passes_iff.mpr ⟨hlow, hhigh⟩
  unfold execConfig
  rw [if_neg hzero, if_neg fits, if_pos hlen]

theorem execConfig_of_failed_draw (hlen : s.keyLen.toNat ≤ Config.rawKeyMax) (hdraw : s.primOk = false) :
    execConfig s = .next (s.clearSecrets.clearKeybuf.drawNext.completeErr .primitive) := by
  obtain ⟨hzero, fits⟩ := domainSize_passes_iff.mpr ⟨hlow, hhigh⟩
  unfold execConfig
  rw [if_neg hzero, if_neg fits, if_neg hlen.not_gt, if_pos hdraw]

theorem execConfig_of_legal (hlen : s.keyLen.toNat ≤ Config.rawKeyMax) (hdraw : s.primOk = true) :
    execConfig s = .next (s.clearSecrets.clearKeybuf.drawNext.construct s.domainSizeIn s.rawKey).completeOk := by
  obtain ⟨hzero, fits⟩ := domainSize_passes_iff.mpr ⟨hlow, hhigh⟩
  unfold execConfig
  rw [if_neg hzero, if_neg fits, if_neg hlen.not_gt, if_neg (ne_false_of_eq_true hdraw)]

end LegalSize

/-- Settles O22: every check passes, and CFG_SOURCE_BITS is db - 1 by the partition. -/
theorem configConstructs : Obligations.ConfigConstructs := by
  intro s hlow hhigh hlen hdraw
  rw [← partition_sourceBits]
  exact execConfig_of_legal hlow hhigh hlen hdraw

/-- Settles O23: of the three checks the first that fails decides the code, over one cleared state. -/
theorem configErrorsClearAndReport : Obligations.ConfigErrorsClearAndReport :=
  ⟨rfl, rfl, rfl, fun _ => ⟨execConfig_of_illegal_size, execConfig_of_long_key, execConfig_of_failed_draw⟩⟩

/-- R183: whatever a state held, nothing is constructed once CONFIG has cleared it and ended in an error. -/
theorem State.cleared_completeErr_unconstructed (s : State) (code : ErrorCode) :
    (s.clearSecrets.clearKeybuf.completeErr code).Unconstructed :=
  ⟨rfl, rfl, ⟨rfl, rfl⟩, ⟨rfl, rfl, rfl, rfl, rfl⟩, ⟨rfl, rfl, rfl⟩⟩

/-- Settles O24: each error of CONFIG completes from the cleared state, and the construction leaves ERR = 0. -/
theorem failedConfigLeavesNothingUsable : Obligations.FailedConfigLeavesNothingUsable := by
  intro s t hconfig herr
  have answer : execConfig s = .next t := hconfig
  obtain ⟨code, -, -, hc⟩ | ⟨-, hc⟩ | ⟨-, -, -, -, hc⟩ := execConfig_cases s
  · cases hc.symm.trans answer
    exact ⟨rfl, s.cleared_completeErr_unconstructed code, rfl⟩
  · cases hc.symm.trans answer
    exact ⟨rfl, s.drawNext.cleared_completeErr_unconstructed .primitive, rfl⟩
  · cases hc.symm.trans answer
    cases herr

/-! ### FEVAL -/

theorem execFeval_of_ready (hready : s.status.ready = true) :
    execFeval s = .next ({ s with fBit := s.roundBit s.fSource.toNat s.fRound.toNat }).completeOk := by
  simp [execFeval, hready]

theorem State.memRead_fBit (s : State) : (s.memRead 0x070 8).data.toNat = s.fBit.toNat := by
  obtain ⟨-, -, registers⟩ := readsReturnLittleEndianBytes
  obtain ⟨-, -, -, -, -, -, fBit, -⟩ := registers s
  exact fBit

/-- Settles O31: FEVAL stores R110's bit, and F_BIT reads as it is stored. -/
theorem fevalCompletesWithTheRoundBit : Obligations.FevalCompletesWithTheRoundBit := by
  intro s hready
  have bit := roundBit_eq Config.hardware s.skey s.rkey s.fSource.toNat s.fRound.toNat
    (le_trans (by decide) hardware_legal.block.1)
  refine ⟨?_, State.memRead_fBit _⟩
  refine (execFeval_of_ready hready).trans ?_
  rw [State.roundBit, bit]
  rfl

end Sys2Proof.Machine
end

section
/-! The Feistel network and the cycle walk, for every round function: the rounds in arithmetic, a round and its inverse,
a pass and its inverse pass, and the first return to the domain along a permutation of [0, 2^db)
(spec/41_feistel.md sections 1 to 3). -/

namespace Sys2Proof.Machine

variable {f : Nat → Nat → Bool} {sb v r : Nat}

/-! ### The rounds -/

/-- XOR of a one-bit target with the round bit is addition modulo 2. -/
theorem xor_toNat_eq_add_mod_two {t : Nat} (ht : t < 2) (b : Bool) : t ^^^ b.toNat = (t + b.toNat) % 2 := by
  obtain rfl | rfl : t = 0 ∨ t = 1 := by omega
  · cases b <;> rfl
  · cases b <;> rfl

theorem source_lt (v sb : Nat) : v % 2 ^ sb < 2 ^ sb := Nat.mod_lt _ (Nat.two_pow_pos sb)

theorem half_lt (hv : v < 2 ^ (sb + 1)) : v / 2 < 2 ^ sb :=
  Nat.div_lt_of_lt_mul (by rwa [Nat.mul_comm, ← Nat.pow_succ])

theorem target_lt_two (hv : v < 2 ^ (sb + 1)) : v / 2 ^ sb < 2 :=
  Nat.div_lt_of_lt_mul (by rwa [← Nat.pow_succ])

/-- R141: the masks and shifts of a forward round as arithmetic. -/
theorem fwd_eq (hv : v < 2 ^ (sb + 1)) :
    fwd f sb v r = 2 * (v % 2 ^ sb) + (v / 2 ^ sb + (f (v % 2 ^ sb) r).toNat) % 2 := by
  simp only [fwd, Config.targetBits, Nat.one_shiftLeft, Nat.and_two_pow_sub_one_eq_mod, Nat.shiftRight_eq_div_pow]
  rw [xor_toNat_eq_add_mod_two (target_lt_two hv),
    ← Nat.shiftLeft_add_eq_or_of_lt (i := 1) (Nat.mod_lt _ two_pos), Nat.shiftLeft_eq, Nat.mul_comm]

/-- R142: the masks and shifts of an inverse round as arithmetic. -/
theorem inv_eq (hv : v < 2 ^ (sb + 1)) :
    inv f sb v r = v / 2 + 2 ^ sb * ((v % 2 + (f (v / 2) r).toNat) % 2) := by
  simp only [inv, Config.targetBits, Nat.one_shiftLeft, Nat.and_two_pow_sub_one_eq_mod v 1,
    Nat.shiftRight_eq_div_pow]
  rw [Nat.pow_one, xor_toNat_eq_add_mod_two (Nat.mod_lt _ two_pos), Nat.or_comm,
    ← Nat.shiftLeft_add_eq_or_of_lt (half_lt hv), Nat.shiftLeft_eq, Nat.mul_comm, Nat.add_comm]

theorem fwd_lt (hv : v < 2 ^ (sb + 1)) : fwd f sb v r < 2 ^ (sb + 1) := by
  rw [fwd_eq hv, Nat.pow_succ]
  have := source_lt v sb
  omega

theorem inv_lt (hv : v < 2 ^ (sb + 1)) : inv f sb v r < 2 ^ (sb + 1) := by
  rw [inv_eq hv]
  rw [Nat.pow_succ] at hv ⊢
  obtain target | target := Nat.mod_two_eq_zero_or_one (v % 2 + (f (v / 2) r).toNat) <;> rw [target] <;> omega

/-- Settles O12: the arithmetic of each round and the bounds that follow from it. -/
theorem roundsMoveTheSourceBits : Obligations.RoundsMoveTheSourceBits :=
  fun _ _ _ _ hv => ⟨fwd_eq hv, inv_eq hv, fwd_lt hv, inv_lt hv⟩

/-- R140: the source below, the target on top; a forward round puts the flipped target below. -/
theorem fwd_join {s t : Nat} (hs : s < 2 ^ sb) (ht : t < 2) :
    fwd f sb (s + 2 ^ sb * t) r = 2 * s + (t + (f s r).toNat) % 2 := by
  have inSpace : s + 2 ^ sb * t < 2 ^ (sb + 1) := by
    rw [Nat.pow_succ]
    obtain rfl | rfl : t = 0 ∨ t = 1 := by omega
    · omega
    · omega
  have source : (s + 2 ^ sb * t) % 2 ^ sb = s := by rw [Nat.add_mul_mod_self_left, Nat.mod_eq_of_lt hs]
  have target : (s + 2 ^ sb * t) / 2 ^ sb = t := by
    rw [Nat.add_mul_div_left _ _ (Nat.two_pow_pos sb), Nat.div_eq_of_lt hs, Nat.zero_add]
  rw [fwd_eq inSpace, source, target]

/-- An inverse round puts the flipped target back on top. -/
theorem inv_join {s t : Nat} (hs : s < 2 ^ sb) (ht : t < 2) :
    inv f sb (2 * s + t) r = s + 2 ^ sb * ((t + (f s r).toNat) % 2) := by
  have source : (2 * s + t) / 2 = s := by omega
  have target : (2 * s + t) % 2 = t := by omega
  rw [inv_eq (by rw [Nat.pow_succ]; omega), source, target]

/-- Flipping a target twice with one round bit gives it back. -/
theorem flip_flip {t : Nat} (ht : t < 2) (b : Nat) : ((t + b) % 2 + b) % 2 = t := by omega

/-- R143: the inverse round reads back the source, so its round bit is the one that flipped the target. -/
theorem inv_fwd (hv : v < 2 ^ (sb + 1)) : inv f sb (fwd f sb v r) r = v := by
  rw [fwd_eq hv, inv_join (source_lt v sb) (Nat.mod_lt _ two_pos), flip_flip (target_lt_two hv), Nat.mod_add_div]

/-- R143, the other composition, for the same reason. -/
theorem fwd_inv (hv : v < 2 ^ (sb + 1)) : fwd f sb (inv f sb v r) r = v := by
  rw [inv_eq hv, fwd_join (half_lt hv) (Nat.mod_lt _ two_pos), flip_flip (Nat.mod_lt _ two_pos), Nat.div_add_mod]

/-- Settles O13: a round keeps the source and flips the target, so the other round flips it back. -/
theorem roundsInvertEachOther : Obligations.RoundsInvertEachOther :=
  fun _ _ _ _ hv => ⟨inv_fwd hv, fwd_inv hv⟩

/-! ### Permutations of [0, m) with their inverses -/

/-- `back` undoes `step` on [0, m) and the other way round, and both stay in [0, m). -/
structure InverseBelow (m : Nat) (step back : Nat → Nat) : Prop where
  step_lt : ∀ v < m, step v < m
  back_lt : ∀ v < m, back v < m
  back_step : ∀ v < m, back (step v) = v
  step_back : ∀ v < m, step (back v) = v

namespace InverseBelow

variable {m : Nat} {step back : Nat → Nat}

theorem symm (h : InverseBelow m step back) : InverseBelow m back step :=
  ⟨h.back_lt, h.step_lt, h.step_back, h.back_step⟩

theorem iterate_lt (h : InverseBelow m step back) (k : Nat) (hv : v < m) : step^[k] v < m :=
  Set.MapsTo.iterate (s := Set.Iio m) h.step_lt k hv

/-- Going `j` of `k` steps back leaves `k - j` steps. -/
theorem back_iterate (h : InverseBelow m step back) {j k : Nat} (hj : j ≤ k) (hv : v < m) :
    back^[j] (step^[k] v) = step^[k - j] v := by
  induction j with
  | zero => rfl
  | succ j ih =>
    have last : k - j = (k - (j + 1)) + 1 := by omega
    rw [Function.iterate_succ_apply', ih (by omega), last, Function.iterate_succ_apply',
      h.back_step _ (h.iterate_lt _ hv)]

end InverseBelow

/-! ### The passes -/

theorem pass_eq_foldl (f : Nat → Nat → Bool) (sb rounds v : Nat) :
    pass f sb rounds v = (List.range rounds).foldl (fun w r => fwd f sb w r) v := by
  induction rounds with
  | zero => rfl
  | succ rounds ih => rw [pass_succ, ih, List.range_succ, List.foldl_append, List.foldl_cons, List.foldl_nil]

theorem passInv_eq_foldl (f : Nat → Nat → Bool) (sb rounds v : Nat) :
    passInv f sb rounds v = (List.range rounds).reverse.foldl (fun w r => inv f sb w r) v := by
  induction rounds generalizing v with
  | zero => rfl
  | succ rounds ih => rw [passInv_succ, ih, List.range_succ, List.reverse_concat, List.foldl_cons]

/-- R145: each round of the inverse pass undoes the last forward round that is left. -/
theorem pass_inverseBelow (f : Nat → Nat → Bool) (sb rounds : Nat) :
    InverseBelow (2 ^ (sb + 1)) (pass f sb rounds) (passInv f sb rounds) := by
  induction rounds with
  | zero => exact ⟨fun _ => id, fun _ => id, fun _ _ => rfl, fun _ _ => rfl⟩
  | succ rounds ih =>
    refine ⟨fun v hv => ?_, fun v hv => ?_, fun v hv => ?_, fun v hv => ?_⟩
    · exact fwd_lt (ih.step_lt v hv)
    · exact ih.back_lt _ (inv_lt hv)
    · rw [pass_succ, passInv_succ, inv_fwd (ih.step_lt v hv), ih.back_step v hv]
    · rw [pass_succ, passInv_succ, ih.step_back _ (inv_lt hv), fwd_inv hv]

/-- The pass of a block with db domain bits; with db = 0 no round runs (R144). -/
theorem domainPass_inverseBelow (f : Nat → Nat → Bool) (db : Nat) :
    InverseBelow (2 ^ db) (pass f (db - 1) (4 * db)) (passInv f (db - 1) (4 * db)) := by
  cases db with
  | zero => exact ⟨fun _ => id, fun _ => id, fun _ _ => rfl, fun _ _ => rfl⟩
  | succ sb => exact pass_inverseBelow f sb _

/-- Settles O14: the recursions are the two folds, and each round is undone by its inverse. -/
theorem passesInvertEachOther : Obligations.PassesInvertEachOther := by
  refine ⟨fun f sb rounds v => ⟨pass_eq_foldl f sb rounds v, passInv_eq_foldl f sb rounds v⟩, fun f db v hv => ?_⟩
  obtain ⟨step_lt, back_lt, back_step, step_back⟩ := domainPass_inverseBelow f db
  exact ⟨step_lt v hv, back_lt v hv, back_step v hv, step_back v hv⟩

/-! ### The first return to the domain -/

/-- `c`, reached from `v` after `p >= 1` steps, is the first value on the way that is in [0, n) (R146, R147). -/
structure FirstReturn (step : Nat → Nat) (n v c p : Nat) : Prop where
  pos : 1 ≤ p
  reached : c = step^[p] v
  inside : c < n
  outside : ∀ j, 1 ≤ j → j < p → n ≤ step^[j] v

variable {n db c p : Nat} {step back : Nat → Nat}

theorem firstReturn_iff :
    FirstReturn step n v c p ↔
      1 ≤ p ∧ c = step^[p] v ∧ c < n ∧ ∀ j, 1 ≤ j → j < p → n ≤ step^[j] v :=
  ⟨fun ⟨hp, hc, hin, hout⟩ => ⟨hp, hc, hin, hout⟩, fun ⟨hp, hc, hin, hout⟩ => ⟨hp, hc, hin, hout⟩⟩

/-- After a step outside the domain the first return is the one from there, one step later. -/
theorem firstReturn_succ_iff (hmiss : n ≤ step v) :
    FirstReturn step n v c (p + 1) ↔ FirstReturn step n (step v) c p := by
  constructor
  · rintro ⟨-, reached, inside, outside⟩
    have pos : 1 ≤ p := by
      by_contra hp
      obtain rfl : p = 0 := by omega
      have : c = step v := reached
      omega
    exact ⟨pos, reached, inside, fun j hj hlt => outside (j + 1) (by omega) (by omega)⟩
  · rintro ⟨pos, reached, inside, outside⟩
    refine ⟨by omega, reached, inside, fun j hj hlt => ?_⟩
    obtain ⟨i, rfl⟩ := Nat.exists_eq_add_of_le' hj
    cases i with
    | zero => exact hmiss
    | succ i => exact outside (i + 1) (by omega) (by omega)

/-- A walk with `k` passes allowed gives the first return, if that comes within `k` passes. -/
theorem walk_eq_some_iff (k : Nat) : walk step n k v = some (c, p) ↔ FirstReturn step n v c p ∧ p ≤ k := by
  induction k generalizing v c p with
  | zero =>
    refine iff_of_false (by simp) fun ⟨h, hp⟩ => ?_
    have := h.pos
    omega
  | succ k ih =>
    by_cases hit : step v < n
    · rw [walk_hit k hit, Option.some_inj, Prod.mk.injEq]
      constructor
      · rintro ⟨rfl, rfl⟩
        exact ⟨⟨le_rfl, rfl, hit, fun j _ _ => by omega⟩, by omega⟩
      · rintro ⟨⟨pos, reached, -, outside⟩, -⟩
        obtain rfl : p = 1 := by
          by_contra hp
          have : n ≤ step v := outside 1 le_rfl (by omega)
          omega
        exact ⟨reached.symm, rfl⟩
    · rw [walk_miss k hit]
      cases p with
      | zero => exact iff_of_false (by simp) fun ⟨h, _⟩ => absurd h.pos (by decide)
      | succ p => simp [firstReturn_succ_iff (not_lt.mp hit), ← ih]

/-- No other return comes before the first one. -/
theorem FirstReturn.le_of_inside {q : Nat} (h : FirstReturn step n v c p) (hq : 1 ≤ q) (inside : step^[q] v < n) :
    p ≤ q := by
  by_contra hlt
  have := h.outside q hq (by omega)
  omega

namespace InverseBelow

variable {m : Nat}

/-- A value met twice leads back to the start. -/
theorem eq_iterate_of_iterate_eq (h : InverseBelow m step back) {i j : Nat} (hij : i ≤ j) (hv : v < m)
    (same : step^[i] v = step^[j] v) : v = step^[j - i] v :=
  calc v = back^[i] (step^[i] v) := by rw [h.back_iterate le_rfl hv, Nat.sub_self, Function.iterate_zero_apply]
    _ = step^[j - i] v := by rw [same, h.back_iterate hij hv]

/-- R148: the `m - n` values outside the domain cannot hold `m - n + 1` steps in a row, because a value met twice would
lead back to the start, which is inside. -/
theorem exists_return (h : InverseBelow m step back) (hv : v < n) (hn : n ≤ m) :
    ∃ p, 1 ≤ p ∧ p ≤ m - n + 1 ∧ step^[p] v < n := by
  by_contra! outside
  have inSpace : v < m := hv.trans_le hn
  have maps : Set.MapsTo (fun j => step^[j] v) (Finset.Icc 1 (m - n + 1)) (Finset.Ico n m) := fun j hj => by
    obtain ⟨pos, bound⟩ := Finset.mem_Icc.mp hj
    exact Finset.mem_coe.mpr (Finset.mem_Ico.mpr ⟨outside j pos bound, h.iterate_lt j inSpace⟩)
  obtain ⟨i, hi, j, hj, hne, same⟩ := Finset.exists_ne_map_eq_of_card_lt_of_maps_to (by simp) maps
  wlog hlt : i < j generalizing i j
  · exact this j hj i hi hne.symm same.symm (by omega)
  obtain ⟨iPos, -⟩ := Finset.mem_Icc.mp hi
  obtain ⟨-, jBound⟩ := Finset.mem_Icc.mp hj
  have start := h.eq_iterate_of_iterate_eq hlt.le inSpace same
  have := outside (j - i) (by omega) (by omega)
  omega

theorem exists_firstReturn (h : InverseBelow m step back) (hv : v < n) (hn : n ≤ m) :
    ∃ c p, FirstReturn step n v c p := by
  obtain ⟨q, pos, -, inside⟩ := h.exists_return hv hn
  have returns : ∃ p, 1 ≤ p ∧ step^[p] v < n := ⟨q, pos, inside⟩
  obtain ⟨first_pos, first_inside⟩ := Nat.find_spec returns
  refine ⟨_, Nat.find returns, first_pos, rfl, first_inside, fun j hj hlt => ?_⟩
  have := Nat.find_min returns hlt
  omega

theorem firstReturn_le (h : InverseBelow m step back) (hv : v < n) (hn : n ≤ m) (hr : FirstReturn step n v c p) :
    p ≤ m - n + 1 := by
  obtain ⟨q, pos, bound, inside⟩ := h.exists_return hv hn
  exact (hr.le_of_inside pos inside).trans bound

/-- R149: the way back meets the same values outside the domain, and first reaches the domain at the start. -/
theorem firstReturn_back (h : InverseBelow m step back) (hv : v < n) (hn : n ≤ m) (hr : FirstReturn step n v c p) :
    FirstReturn back n c v p := by
  obtain ⟨pos, rfl, -, outside⟩ := hr
  have inSpace : v < m := hv.trans_le hn
  refine ⟨pos, ?_, hv, fun j hj hlt => ?_⟩
  · rw [h.back_iterate le_rfl inSpace, Nat.sub_self, Function.iterate_zero_apply]
  · rw [h.back_iterate hlt.le inSpace]
    exact outside (p - j) (by omega) (by omega)

/-- The bound of R148 cuts no walk. -/
theorem walk_eq_some_iff (h : InverseBelow m step back) (hv : v < n) (hn : n ≤ m) :
    walk step n (m - n + 1) v = some (c, p) ↔ FirstReturn step n v c p := by
  rw [Machine.walk_eq_some_iff, and_iff_left_iff_imp]
  exact h.firstReturn_le hv hn

/-- R148: a walk along a permutation ends. -/
theorem walk_ends (h : InverseBelow m step back) (hv : v < n) (hn : n ≤ m) :
    ∃ c p, walk step n (m - n + 1) v = some (c, p) ∧ c < n ∧ 1 ≤ p ∧ p ≤ m - n + 1 := by
  obtain ⟨c, p, hr⟩ := h.exists_firstReturn hv hn
  exact ⟨c, p, (h.walk_eq_some_iff hv hn).mpr hr, hr.inside, hr.pos, h.firstReturn_le hv hn hr⟩

end InverseBelow

/-! ### The two cycle walks -/

theorem encWalk_eq_some_iff (hv : v < n) (hn : n ≤ 2 ^ db) :
    encWalk f n (db - 1) db v = some (c, p) ↔ FirstReturn (pass f (db - 1) (4 * db)) n v c p :=
  (domainPass_inverseBelow f db).walk_eq_some_iff hv hn

theorem decWalk_eq_some_iff (hv : v < n) (hn : n ≤ 2 ^ db) :
    decWalk f n (db - 1) db v = some (c, p) ↔ FirstReturn (passInv f (db - 1) (4 * db)) n v c p :=
  (domainPass_inverseBelow f db).symm.walk_eq_some_iff hv hn

/-- Settles O15: each walk is the first return along its pass, which the bound does not cut. -/
theorem walksGiveTheFirstReturnToTheDomain : Obligations.WalksGiveTheFirstReturnToTheDomain :=
  fun _ _ _ _ _ _ hv hn =>
    ⟨(encWalk_eq_some_iff hv hn).trans firstReturn_iff, (decWalk_eq_some_iff hv hn).trans firstReturn_iff⟩

theorem encWalk_ends (f : Nat → Nat → Bool) (hv : v < n) (hn : n ≤ 2 ^ db) :
    ∃ c p, encWalk f n (db - 1) db v = some (c, p) ∧ c < n ∧ 1 ≤ p ∧ p ≤ 2 ^ db - n + 1 :=
  (domainPass_inverseBelow f db).walk_ends hv hn

theorem decWalk_ends (f : Nat → Nat → Bool) (hv : v < n) (hn : n ≤ 2 ^ db) :
    ∃ c p, decWalk f n (db - 1) db v = some (c, p) ∧ c < n ∧ 1 ≤ p ∧ p ≤ 2 ^ db - n + 1 :=
  (domainPass_inverseBelow f db).symm.walk_ends hv hn

/-- Settles O16: the pass permutes [0, 2^db), so each walk returns before the values outside run out. -/
theorem cycleWalksAlwaysEnd : Obligations.CycleWalksAlwaysEnd :=
  fun f _ _ _ hv hn => ⟨encWalk_ends f hv hn, decWalk_ends f hv hn⟩

/-- R149: the decrypt walk leads back along the encrypt walk. -/
theorem encWalk_iff_decWalk {w k : Nat} (hn : n ≤ 2 ^ db) (hv : v < n) (hw : w < n) :
    encWalk f n (db - 1) db v = some (w, k) ↔ decWalk f n (db - 1) db w = some (v, k) := by
  rw [encWalk_eq_some_iff hv hn, decWalk_eq_some_iff hw hn]
  exact ⟨(domainPass_inverseBelow f db).firstReturn_back hv hn,
    (domainPass_inverseBelow f db).symm.firstReturn_back hw hn⟩

/-- Settles O17: the way back from a first return is a first return of the inverse pass, and the other way round. -/
theorem decryptWalkRetracesEncryptWalk : Obligations.DecryptWalkRetracesEncryptWalk :=
  fun _ _ _ _ _ _ hn hv hw => encWalk_iff_decWalk hn hv hw

/-- R149: the walks of a covered domain are a permutation and its inverse. -/
theorem exists_perm_of_walks (f : Nat → Nat → Bool) (hn : n ≤ 2 ^ db) :
    ∃ perm : Equiv.Perm (Fin n), ∀ v : Fin n, ∃ p,
      encWalk f n (db - 1) db v.val = some ((perm v).val, p) ∧
      decWalk f n (db - 1) db (perm v).val = some (v.val, p) := by
  have enc (v : Fin n) : ∃ (w : Fin n) (p : Nat), encWalk f n (db - 1) db v = some (w.val, p) := by
    obtain ⟨c, p, walked, inside, -, -⟩ := encWalk_ends f v.isLt hn
    exact ⟨⟨c, inside⟩, p, walked⟩
  have dec (w : Fin n) : ∃ (v : Fin n) (p : Nat), decWalk f n (db - 1) db w = some (v.val, p) := by
    obtain ⟨c, p, walked, inside, -, -⟩ := decWalk_ends f w.isLt hn
    exact ⟨⟨c, inside⟩, p, walked⟩
  choose e ep he using enc
  choose d dp hd using dec
  have back (v : Fin n) : decWalk f n (db - 1) db (e v) = some (v.val, ep v) :=
    (encWalk_iff_decWalk hn v.isLt (e v).isLt).mp (he v)
  have forth (w : Fin n) : encWalk f n (db - 1) db (d w) = some (w.val, dp w) :=
    (encWalk_iff_decWalk hn (d w).isLt w.isLt).mpr (hd w)
  refine ⟨⟨e, d, fun v => ?_, fun w => ?_⟩, fun v => ⟨ep v, he v, back v⟩⟩
  · obtain ⟨same, -⟩ := Prod.mk.inj (Option.some.inj ((hd (e v)).symm.trans (back v)))
    exact Fin.ext same
  · obtain ⟨same, -⟩ := Prod.mk.inj (Option.some.inj ((he (d w)).symm.trans (forth w)))
    exact Fin.ext same

/-- Settles O18: the partition's db covers the domain. -/
theorem encryptionPermutesTheDomain : Obligations.EncryptionPermutesTheDomain :=
  fun f n _ _ => exists_perm_of_walks f ((partition_domainBits_le_iff n _).mp le_rfl)

theorem passBound_two_pow (e : Nat) : passBound (2 ^ e) e = 1 := by rw [passBound, Nat.sub_self]

/-- Settles O21: every value a pass gives is in the domain, so the first pass is the last. -/
theorem powerOfTwoDomainsTakeOnePass : Obligations.PowerOfTwoDomainsTakeOnePass := by
  intro f e v hv
  rw [encWalk, decWalk, passBound_two_pow]
  obtain ⟨pass_lt, passInv_lt, -, -⟩ := domainPass_inverseBelow f e
  exact ⟨walk_hit 0 (pass_lt v hv), walk_hit 0 (passInv_lt v hv)⟩

end Sys2Proof.Machine
end

section
/-! ENCRYPT and DECRYPT on a constructed block: the walk of the latched registers is the walk of the partition, and each
command completes with it (spec/41_feistel.md section 4). -/

namespace Sys2Proof.Machine

variable {s : State}

/-! ### The latched registers -/

namespace State.CfgLatched

theorem domainBits_le (h : s.CfgLatched) : (partition s.cfgDomainSize.toNat).domainBits ≤ 63 :=
  (partition_domainBits_le_iff _ _).mpr h.domainSize_legal.2

theorem domainBits_toNat (h : s.CfgLatched) :
    s.cfgDomainBits.toNat = (partition s.cfgDomainSize.toNat).domainBits := by
  have := h.domainBits_le
  rw [h.domainBits, BitVec.toNat_ofNat]
  omega

/-- The signed CFG_SOURCE_BITS is db - 1, and -1, where no round runs, is used as 0 (R153). -/
theorem shiftBits_eq (h : s.CfgLatched) : s.shiftBits = (partition s.cfgDomainSize.toNat).domainBits - 1 := by
  have := h.domainBits_le
  rw [State.shiftBits, h.sourceBits, partition_sourceBits, BitVec.toInt_ofInt_eq_self] <;> omega

theorem encWalk_eq (h : s.CfgLatched) :
    s.encWalk = Machine.encWalk s.roundBit s.cfgDomainSize.toNat ((partition s.cfgDomainSize.toNat).domainBits - 1)
      (partition s.cfgDomainSize.toNat).domainBits s.valueIn.toNat := by
  rw [State.encWalk, h.shiftBits_eq, h.domainBits_toNat]

theorem decWalk_eq (h : s.CfgLatched) :
    s.decWalk = Machine.decWalk s.roundBit s.cfgDomainSize.toNat ((partition s.cfgDomainSize.toNat).domainBits - 1)
      (partition s.cfgDomainSize.toNat).domainBits s.valueIn.toNat := by
  rw [State.decWalk, h.shiftBits_eq, h.domainBits_toNat]

theorem covers (_ : s.CfgLatched) :
    s.cfgDomainSize.toNat ≤ 2 ^ (partition s.cfgDomainSize.toNat).domainBits :=
  (partition_domainBits_le_iff _ _).mp le_rfl

/-- R153: a value of the domain and a pass count within R148's bound fit their registers. -/
theorem result_fits (h : s.CfgLatched) {c p : Nat} (inside : c < s.cfgDomainSize.toNat)
    (bound : p ≤ 2 ^ (partition s.cfgDomainSize.toNat).domainBits - s.cfgDomainSize.toNat + 1) :
    (BitVec.ofNat 64 c).toNat = c ∧ (BitVec.ofNat 64 p).toNat = p := by
  have space : 2 ^ (partition s.cfgDomainSize.toNat).domainBits ≤ 2 ^ 63 :=
    Nat.pow_le_pow_right two_pos h.domainBits_le
  rw [BitVec.toNat_ofNat, BitVec.toNat_ofNat]
  exact ⟨Nat.mod_eq_of_lt (inside.trans s.cfgDomainSize.isLt), Nat.mod_eq_of_lt (by omega)⟩

end State.CfgLatched

/-! ### The completions -/

/-- The state an ENCRYPT or a DECRYPT leaves whose walk gives `c` after `p` passes (R150, R151). -/
def State.walkCompleted (s : State) (c p : Nat) : State :=
  ({ s with valueOut := BitVec.ofNat 64 c, passCount := BitVec.ofNat 64 p }).completeOk

theorem State.finishWalk_some (s : State) (c p : Nat) : s.finishWalk (some (c, p)) = .next (s.walkCompleted c p) := rfl

section InDomain

variable {c p : Nat} (hready : s.status.ready = true) (hv : s.valueIn.toNat < s.cfgDomainSize.toNat)

include hready hv

theorem execEncrypt_of_walk (walked : s.encWalk = some (c, p)) : execEncrypt s = .next (s.walkCompleted c p) := by
  rw [execEncrypt, if_neg (by simp [hready]), if_neg hv.not_ge, walked, State.finishWalk_some]

theorem execDecrypt_of_walk (walked : s.decWalk = some (c, p)) : execDecrypt s = .next (s.walkCompleted c p) := by
  rw [execDecrypt, if_neg (by simp [hready]), if_neg hv.not_ge, walked, State.finishWalk_some]

end InDomain

/-- Settles O26: the encrypt walk ends within R148's bound, so its result fits the registers. -/
theorem encryptCompletesWithItsWalk : Obligations.EncryptCompletesWithItsWalk := by
  intro s hready hcfg hv
  obtain ⟨c, p, walked, inside, -, bound⟩ := encWalk_ends s.roundBit hv hcfg.covers
  exact ⟨c, p, walked, execEncrypt_of_walk hready hv (hcfg.encWalk_eq.trans walked), hcfg.result_fits inside bound⟩

/-- Settles O27: the decrypt walk ends within R148's bound, so its result fits the registers. -/
theorem decryptCompletesWithItsWalk : Obligations.DecryptCompletesWithItsWalk := by
  intro s hready hcfg hv
  obtain ⟨c, p, walked, inside, -, bound⟩ := decWalk_ends s.roundBit hv hcfg.covers
  exact ⟨c, p, walked, execDecrypt_of_walk hready hv (hcfg.decWalk_eq.trans walked), hcfg.result_fits inside bound⟩

/-- R150, R151: a walk's completion and a new VALUE_IN leave the accessors latched. -/
theorem State.CfgLatched.walkCompleted (h : s.CfgLatched) (c p : Nat) (w : Word) :
    ({ s.walkCompleted c p with valueIn := w } : State).CfgLatched :=
  ⟨h.domainSize_legal, h.sourceBits, h.targetBits, h.domainBits, h.rounds⟩

/-- Settles O37: ENCRYPT keeps the keys and the accessors, so DECRYPT walks back along the same passes. -/
theorem decryptCommandUndoesEncryptCommand : Obligations.DecryptCommandUndoesEncryptCommand := by
  intro s hready hcfg hv
  obtain ⟨c, p, walked, inside, -, bound⟩ := encWalk_ends s.roundBit hv hcfg.covers
  obtain ⟨fits, -⟩ := hcfg.result_fits inside bound
  have inDomain : (BitVec.ofNat 64 c).toNat < s.cfgDomainSize.toNat := fits.symm ▸ inside
  have retraced : ({ s.walkCompleted c p with valueIn := BitVec.ofNat 64 c } : State).decWalk =
      some (s.valueIn.toNat, p) := by
    refine (hcfg.walkCompleted c p _).decWalk_eq.trans ?_
    have back := (encWalk_iff_decWalk hcfg.covers hv inside).mp walked
    rwa [← fits] at back
  have value : BitVec.ofNat 64 s.valueIn.toNat = s.valueIn := by simp
  exact ⟨_, _, execEncrypt_of_walk hready hv (hcfg.encWalk_eq.trans walked),
    execDecrypt_of_walk hready inDomain retraced, inDomain, value, rfl⟩

end Sys2Proof.Machine
end

section
/-! The lifecycle: ZEROIZE, the transitions, and the two-run rules for the secrets: each operation takes two states that
differ only in secrets to two such states (spec/42_lifecycle.md). -/

namespace Sys2Proof.Machine

variable {s t : State}

/-! ### ZEROIZE -/

/-- R25: STATUS after a success that leaves nothing constructed shows DONE, and BUSYWR where it was set. -/
theorem Status.completedOk_word_of_notReady {st : Status} (hready : st.ready = false) :
    st.completedOk.word = if st.busywr then 0x14 else 0x04 := by
  have fields : st.completedOk = ⟨false, false, true, false, st.busywr, .noError⟩ := by
    rw [Status.completedOk, hready]
  rw [fields]
  cases st.busywr <;> decide

theorem execEncrypt_of_notReady (hready : s.status.ready = false) :
    execEncrypt s = .next (s.completeErr .notReady) :=
  if_pos hready

/-- Settles O32: ZEROIZE has one answer, which is not ready and which a second ZEROIZE clears to itself. -/
theorem zeroizeClearsEverything : Obligations.ZeroizeClearsEverything := by
  intro s t
  have word : s.zeroizeData.completeOk.status.word = if s.status.busywr then 0x14 else 0x04 :=
    Status.completedOk_word_of_notReady (st := s.zeroizeData.status) rfl
  have notReady : t.status.ready = false := rfl
  exact ⟨rfl, word, ⟨_, execEncrypt_of_notReady notReady, rfl⟩, rfl⟩

/-! ### ENCRYPT, DECRYPT and FEVAL as one case -/

/-- The error that ENCRYPT, DECRYPT or FEVAL reports, if any, in the order of R209. -/
def State.dataError (i : Instr) (s : State) : Option ErrorCode :=
  if s.status.ready = false then some .notReady
  else if i ≠ .feval ∧ s.cfgDomainSize.toNat ≤ s.valueIn.toNat then some .domainValue
  else none

/-- The state after a success of ENCRYPT, DECRYPT or FEVAL with these results. -/
def State.dataCompleted (s : State) (valueOut : Word) (fBit : Bool) (passCount : Word) : State :=
  ({ s with valueOut := valueOut, fBit := fBit, passCount := passCount }).completeOk

theorem State.dataError_of_notReady (i : Instr) (hready : s.status.ready = false) :
    s.dataError i = some .notReady :=
  if_pos hready

theorem State.dataError_of_ready {i : Instr} {code : ErrorCode} (hready : s.status.ready = true)
    (h : s.dataError i = some code) : code = .domainValue := by
  unfold State.dataError at h
  split at h
  · next hnot => cases hready.symm.trans hnot
  · split at h <;> cases h
    rfl

/-- What a walk command that is ready reports: the value is checked against the domain. -/
theorem State.dataError_of_walk {i : Instr} (hi : i ≠ .feval) (hready : s.status.ready = true) :
    s.dataError i = if s.cfgDomainSize.toNat ≤ s.valueIn.toNat then some .domainValue else none := by
  simp [State.dataError, hi, hready]

theorem State.dataError_feval (hready : s.status.ready = true) : s.dataError .feval = none := by
  simp [State.dataError, hready]

/-- R150, R151: ENCRYPT and DECRYPT end in the same three ways. -/
theorem exec_walk_cases {i : Instr} (hi : i = .encrypt ∨ i = .decrypt) (h : exec i s = .next t) :
    (s.status.ready = false ∧ t = s.completeErr .notReady) ∨
      (s.status.ready = true ∧ s.cfgDomainSize.toNat ≤ s.valueIn.toNat ∧ t = s.completeErr .domainValue) ∨
      (s.status.ready = true ∧ s.valueIn.toNat < s.cfgDomainSize.toNat ∧ ∃ c p, t = s.walkCompleted c p) := by
  obtain rfl | rfl := hi
  · exact (execEncrypt_cases h).imp_right (.imp_right fun ⟨hr, hv, c, p, _, ht⟩ => ⟨hr, hv, c, p, ht⟩)
  · exact (execDecrypt_cases h).imp_right (.imp_right fun ⟨hr, hv, c, p, _, ht⟩ => ⟨hr, hv, c, p, ht⟩)

/-- R150, R151, R115: ENCRYPT, DECRYPT and FEVAL report their error, or write results and nothing else. -/
theorem exec_data_cases {i : Instr} (hi : i = .encrypt ∨ i = .decrypt ∨ i = .feval) (h : exec i s = .next t) :
    (∃ code, s.dataError i = some code ∧ t = s.completeErr code) ∨
      (s.dataError i = none ∧ ∃ valueOut fBit passCount, t = s.dataCompleted valueOut fBit passCount) := by
  by_cases feval : i = .feval
  · rw [feval] at h ⊢
    obtain ⟨hr, rfl⟩ | ⟨hr, rfl⟩ := execFeval_cases h
    · exact .inl ⟨_, s.dataError_of_notReady _ hr, rfl⟩
    · exact .inr ⟨State.dataError_feval hr, s.valueOut, _, s.passCount, rfl⟩
  · have walks : i = .encrypt ∨ i = .decrypt := hi.imp_right (Or.resolve_right · feval)
    obtain ⟨hr, rfl⟩ | ⟨hr, hv, rfl⟩ | ⟨hr, hv, c, p, rfl⟩ := exec_walk_cases walks h
    · exact .inl ⟨_, s.dataError_of_notReady _ hr, rfl⟩
    · exact .inl ⟨_, (State.dataError_of_walk feval hr).trans (if_pos hv), rfl⟩
    · exact .inr ⟨(State.dataError_of_walk feval hr).trans (if_neg hv.not_ge), _, s.fBit, _, rfl⟩

/-! ### The transition table -/

/-- R113, R114: CONFIG ends constructed exactly when it reports no error. -/
theorem execConfig_ready (h : execConfig s = .next t) : t.status.ready = !t.status.err := by
  obtain ⟨code, -, -, hc⟩ | ⟨-, hc⟩ | ⟨-, -, -, -, hc⟩ := execConfig_cases s <;>
    cases hc.symm.trans h <;> rfl

theorem wellFormed_of_decode_ok {w : CmdWord} {i : Instr} (h : decode w = .ok i) : CmdWord.wellFormed w = true := by
  rw [decode_eq_ok_iff.mp h]
  cases i <;> rfl

/-- R205: a pending illegal word completes with ILLEGAL_CMD. -/
theorem engineStep_of_illegal {w : CmdWord} (hpending : s.pending = some w) (hill : CmdWord.wellFormed w = false) :
    engineStep s = .next (s.completeErr .illegalCmd) := by
  unfold engineStep
  rw [hpending]
  cases hdecode : decode w with
  | ok i => cases (wellFormed_of_decode_ok hdecode).symm.trans hill
  | error e => simp only [hdecode]

/-- Settles O36: row by row, the three data commands as one case. -/
theorem lifecycleTransitions : Obligations.LifecycleTransitions := by
  refine ⟨fun s => rfl, fun s t => execConfig_ready, fun s t h => ?_, fun i s t hi h => ?_,
    fun s t w hpending hill h => ?_⟩
  · rw [execZeroize_next h]
    rfl
  · obtain ⟨code, herr, rfl⟩ | ⟨herr, valueOut, fBit, passCount, rfl⟩ := exec_data_cases hi h
    · refine ⟨rfl, rfl, rfl, rfl, rfl, rfl, rfl, rfl, fun hready => .inr ?_, fun hready => ?_⟩
      · exact State.dataError_of_ready hready herr
      · exact (Option.some.inj ((s.dataError_of_notReady i hready).symm.trans herr)).symm
    · refine ⟨rfl, rfl, rfl, rfl, rfl, rfl, rfl, rfl, fun _ => .inl rfl, fun hready => ?_⟩
      cases (s.dataError_of_notReady i hready).symm.trans herr
  · cases (engineStep_of_illegal hpending hill).symm.trans h
    exact ⟨rfl, rfl⟩

/-! ### States that differ only in secrets -/

/-- `s` with the keys, the slots, the key buffer, the scratch and the draws of `x`. -/
def State.withSecrets (s x : State) : State :=
  { s with
    skey := x.skey, rkey := x.rkey, slotS := x.slotS, slotR := x.slotR, keybuf := x.keybuf, scratch := x.scratch,
    primOk := x.primOk, drawCount := x.drawCount }

/-- The three results that may depend on the keys (R185) set aside. -/
def State.withoutResults (s : State) : State := { s with valueOut := 0, fBit := false, passCount := 0 }

theorem State.sameButSecrets_withSecrets (s x : State) : s.SameButSecrets (s.withSecrets x) :=
  ⟨rfl, rfl, ⟨rfl, rfl, rfl, rfl, rfl⟩, ⟨rfl, rfl, rfl⟩, ⟨rfl, rfl, rfl, rfl, rfl⟩, rfl, rfl, rfl⟩

namespace State.SameButSecrets

theorem eq_withSecrets (h : s.SameButSecrets t) : t = s.withSecrets t := by
  obtain ⟨hstatus, hctrl, ⟨hsize, hlen, hvalue, hsource, hround⟩, ⟨hout, hbit, hpass⟩, ⟨hn, hsb, htb, hdb, hrounds⟩,
    hpending, hschedule, hreply⟩ := h
  cases s
  cases t
  simp_all [State.withSecrets]

/-- The two-run rule of an operation, from one run: replacing the secrets of its argument replaces no more than the
secrets of its result. -/
theorem map {op : State → State} (h : s.SameButSecrets t)
    (hop : ∀ x, op (s.withSecrets x) = (op s).withSecrets (op (s.withSecrets x))) : (op s).SameButSecrets (op t) := by
  rw [h.eq_withSecrets, hop]
  exact (op s).sameButSecrets_withSecrets _

section Operations

variable (h : s.SameButSecrets t)

include h

theorem accept (w : CmdWord) : (s.accept w).SameButSecrets (t.accept w) :=
  h.map (op := (State.accept · w)) fun _ => rfl

theorem noteDroppedWrite : s.noteDroppedWrite.SameButSecrets t.noteDroppedWrite := h.map fun _ => rfl

theorem completeOk : s.completeOk.SameButSecrets t.completeOk := h.map fun _ => rfl

theorem completeErr (code : ErrorCode) : (s.completeErr code).SameButSecrets (t.completeErr code) :=
  h.map (op := (State.completeErr · code)) fun _ => rfl

theorem cleared : s.clearSecrets.clearKeybuf.SameButSecrets t.clearSecrets.clearKeybuf :=
  h.map (op := fun s => s.clearSecrets.clearKeybuf) fun _ => rfl

theorem drawNext : s.drawNext.SameButSecrets t.drawNext := h.map fun _ => rfl

theorem zeroizeData : s.zeroizeData.SameButSecrets t.zeroizeData := h.map fun _ => rfl

theorem applyReset : s.applyReset.SameButSecrets t.applyReset := h.map fun _ => rfl

theorem withoutResults : s.withoutResults.SameButSecrets t.withoutResults := h.map fun _ => rfl

theorem setSchedule (turns : List Turn) :
    State.SameButSecrets { s with schedule := turns } { t with schedule := turns } :=
  h.map (op := fun s => { s with schedule := turns }) fun _ => rfl

theorem setReply (reply : Option BusReply) :
    State.SameButSecrets { s with busReply := reply } { t with busReply := reply } :=
  h.map (op := fun s => { s with busReply := reply }) fun _ => rfl

theorem setCtrl (ie : Bool) : State.SameButSecrets { s with ctrlIE := ie } { t with ctrlIE := ie } :=
  h.map (op := fun s => { s with ctrlIE := ie }) fun _ => rfl

theorem clearStatus (written : Word) :
    State.SameButSecrets { s with status := s.status.clearedBy written }
      { t with status := t.status.clearedBy written } :=
  h.map (op := fun s => { s with status := s.status.clearedBy written }) fun _ => rfl

/-- The keys a CONFIG derives may come from different key buffers: keys are secrets. -/
theorem construct (n : Word) (raw raw' : List Byte) : (s.construct n raw).SameButSecrets (t.construct n raw') := by
  rw [h.eq_withSecrets]
  exact (s.construct n raw).sameButSecrets_withSecrets ((s.withSecrets t).construct n raw')

/-! ### Host accesses -/

/-- R33: the key buffer is write-only, so no register shows a secret. -/
theorem readReg_eq (r : Reg) : s.readReg r = t.readReg r := by
  rw [h.eq_withSecrets]
  cases r <;> rfl

theorem memRead_eq (offset size : Nat) : s.memRead offset size = t.memRead offset size := by
  unfold State.memRead State.doublewordAt
  simp only [h.readReg_eq]

theorem writeCmd (w : CmdWord) : (s.writeCmd w).SameButSecrets (t.writeCmd w) := by
  unfold State.writeCmd
  rw [h.status]
  split
  · exact h.noteDroppedWrite
  · exact h.accept w

/-- A 4-byte write to a key register keeps the other half of a secret, and it is a secret again. -/
theorem storeMerged (r : Reg) (offset size : Nat) (data : Word) :
    (s.storeOperand r (mergeLanes offset size (s.operandHeld r) data)).SameButSecrets
      (t.storeOperand r (mergeLanes offset size (t.operandHeld r) data)) :=
  h.map (op := fun s => s.storeOperand r (mergeLanes offset size (s.operandHeld r) data)) fun _ => by cases r <;> rfl

theorem writeOperand (r : Reg) (offset size : Nat) (data : Word) :
    (s.writeOperand r offset size data).SameButSecrets (t.writeOperand r offset size data) := by
  unfold State.writeOperand
  rw [h.status]
  split
  · exact h.noteDroppedWrite
  · exact h.storeMerged r offset size data

theorem writeEffect (offset size : Nat) (data : Word) :
    (s.writeEffect offset size data).SameButSecrets (t.writeEffect offset size data) := by
  unfold State.writeEffect
  split
  · exact h
  · exact h.writeCmd _
  · exact h.clearStatus _
  · rw [h.ctrl]
    exact h.setCtrl _
  · split
    · exact h.writeOperand _ _ _ _
    · exact h

theorem hostAccess {a : Access} {s' : State} (ha : Machine.hostAccess a s = .next s') :
    ∃ t', Machine.hostAccess a t = .next t' ∧ s'.SameButSecrets t' := by
  obtain ⟨offset, size, rfl, hl, rfl⟩ | ⟨offset, size, data, rfl, hl, rfl⟩ := hostAccess_next ha
  · rw [h.memRead_eq offset size]
    exact ⟨_, if_pos hl, h.setReply _⟩
  · refine ⟨_, if_pos hl, ?_⟩
    rw [t.memWrite_legal data hl]
    exact (h.writeEffect offset size data).setReply _

/-! ### Commands -/

theorem dataError_eq (i : Instr) : s.dataError i = t.dataError i := by
  obtain ⟨-, -, hvalue, -⟩ := h.operands
  obtain ⟨hn, -⟩ := h.accessors
  unfold State.dataError
  rw [h.status, hvalue, hn]

/-- ENCRYPT, DECRYPT and FEVAL: both runs report the same error or both succeed, with results of their own. -/
theorem exec_data {i : Instr} {s' t' : State} (hi : i = .encrypt ∨ i = .decrypt ∨ i = .feval)
    (hs : exec i s = .next s') (ht : exec i t = .next t') : s'.withoutResults.SameButSecrets t'.withoutResults := by
  have same := h.dataError_eq i
  obtain ⟨code, hcode, rfl⟩ | ⟨hnone, _, _, _, rfl⟩ := exec_data_cases hi hs <;>
    obtain ⟨code', hcode', rfl⟩ | ⟨hnone', _, _, _, rfl⟩ := exec_data_cases hi ht
  · cases hcode.symm.trans (same.trans hcode')
    exact (h.completeErr code).withoutResults
  · cases hcode.symm.trans (same.trans hnone')
  · cases hnone.symm.trans (same.trans hcode')
  · exact h.completeOk.withoutResults

/-- CONFIG: the same check decides both runs, and no answer is a fault. -/
theorem execConfig (hdraw : s.primOk = t.primOk) :
    ∃ s' t', Machine.execConfig s = .next s' ∧ Machine.execConfig t = .next t' ∧ s'.SameButSecrets t' := by
  obtain ⟨hsize, hlen, -⟩ := h.operands
  by_cases illegal : s.domainSizeIn.toNat = 0 ∨ 2 ^ 63 < s.domainSizeIn.toNat
  · exact ⟨_, _, execConfig_of_illegal_size illegal, execConfig_of_illegal_size (hsize ▸ illegal),
      h.cleared.completeErr _⟩
  have low : 1 ≤ s.domainSizeIn.toNat := by omega
  have high : s.domainSizeIn.toNat ≤ 2 ^ 63 := by omega
  have low' : 1 ≤ t.domainSizeIn.toNat := hsize ▸ low
  have high' : t.domainSizeIn.toNat ≤ 2 ^ 63 := hsize ▸ high
  by_cases long : Config.rawKeyMax < s.keyLen.toNat
  · exact ⟨_, _, execConfig_of_long_key low high long, execConfig_of_long_key low' high' (hlen ▸ long),
      h.cleared.completeErr _⟩
  have fits : s.keyLen.toNat ≤ Config.rawKeyMax := not_lt.mp long
  have fits' : t.keyLen.toNat ≤ Config.rawKeyMax := hlen ▸ fits
  cases draw : s.primOk with
  | false =>
    exact ⟨_, _, execConfig_of_failed_draw low high fits draw,
      execConfig_of_failed_draw low' high' fits' (hdraw ▸ draw), h.cleared.drawNext.completeErr _⟩
  | true =>
    refine ⟨_, _, execConfig_of_legal low high fits draw, execConfig_of_legal low' high' fits' (hdraw ▸ draw), ?_⟩
    rw [← hsize]
    exact (h.cleared.drawNext.construct _ _ _).completeOk

theorem execZeroize {s' t' : State} (hs : Machine.execZeroize s = .next s') (ht : Machine.execZeroize t = .next t') :
    s'.SameButSecrets t' := by
  rw [execZeroize_next hs, execZeroize_next ht]
  exact h.zeroizeData.completeOk

end Operations

end State.SameButSecrets

/-- R71: the turn at the head of the schedule is taken. -/
theorem step_of_schedule {u : Turn} {rest : List Turn} (h : s.schedule = u :: rest) :
    step s = takeTurn u { s with schedule := rest } := by
  unfold step nextTurn
  rw [h]

/-- Settles O58: the same turn is taken in both states, and it is a reset or a host access. -/
theorem hostAccessesShowNoSecret : Obligations.HostAccessesShowNoSecret := by
  intro s t s' h notEngine nonempty hstep
  obtain ⟨hs, -⟩ | ⟨rest, hs, -⟩ | ⟨rest, hs, rfl⟩ | ⟨a, rest, hs, haccess⟩ := step_cases hstep
  · exact absurd hs nonempty
  · exact absurd hs (notEngine rest)
  · exact ⟨_, step_of_schedule (h.schedule ▸ hs), (h.setSchedule rest).applyReset⟩
  · obtain ⟨t', ht', same⟩ := (h.setSchedule rest).hostAccess haccess
    have taken : step t = hostAccess a { t with schedule := rest } := step_of_schedule (h.schedule ▸ hs)
    exact ⟨t', taken.trans ht', same⟩

/-- Settles O59: CONFIG and ZEROIZE show no secret at all, the others only in the results set aside. -/
theorem commandsShowKeysOnlyInResults : Obligations.CommandsShowKeysOnlyInResults := by
  intro i s t s' t' h hdraw hs ht
  cases i with
  | config =>
    obtain ⟨u, v, hu, hv, same⟩ := h.execConfig hdraw
    cases hu.symm.trans hs
    cases hv.symm.trans ht
    exact same.withoutResults
  | encrypt => exact h.exec_data (.inl rfl) hs ht
  | decrypt => exact h.exec_data (.inr (.inl rfl)) hs ht
  | feval => exact h.exec_data (.inr (.inr rfl)) hs ht
  | zeroize => exact (h.execZeroize hs ht).withoutResults

end Sys2Proof.Machine
end

section
/-! Errors, completions and the interrupt: which error each command reports, what the two ends of a command and its
acceptance do to STATUS, and the level of `irq` (spec/60_exceptions.md). -/

namespace Sys2Proof.Machine

variable {s t : State} {i : Instr} {size : Nat}

/-! ### The errors of ENCRYPT, DECRYPT and FEVAL -/

/-- R204: READY is checked before anything else. -/
theorem exec_of_notReady (hi : i = .encrypt ∨ i = .decrypt ∨ i = .feval) (hready : s.status.ready = false) :
    exec i s = .next (s.completeErr .notReady) := by
  obtain rfl | rfl | rfl := hi
  · exact execEncrypt_of_notReady hready
  · exact if_pos hready
  · exact if_pos hready

/-- R201: on a ready block VALUE_IN is checked against the domain. -/
theorem exec_of_outside (hi : i = .encrypt ∨ i = .decrypt) (hready : s.status.ready = true)
    (hv : s.cfgDomainSize.toNat ≤ s.valueIn.toNat) : exec i s = .next (s.completeErr .domainValue) := by
  have notUnready : ¬ s.status.ready = false := ne_false_of_eq_true hready
  obtain rfl | rfl := hi
  · exact (if_neg notUnready).trans (if_pos hv)
  · exact (if_neg notUnready).trans (if_pos hv)

/-- Settles O29: READY passes, and the domain check answers. -/
theorem outOfDomainValuesAreRejected : Obligations.OutOfDomainValuesAreRejected :=
  ⟨rfl, fun _ _ => exec_of_outside⟩

/-- Settles O30: the check of READY is the first of all three commands. -/
theorem commandsBeforeConstructionAreNotReady : Obligations.CommandsBeforeConstructionAreNotReady :=
  ⟨rfl, fun _ _ => exec_of_notReady⟩

/-- Settles O4: the decoder rejects every ill-formed word, and the rejection is an error completion. -/
theorem illegalWordCompletesWithIllegalCmd : Obligations.IllegalWordCompletesWithIllegalCmd :=
  ⟨rfl, fun _ _ => engineStep_of_illegal⟩

/-! ### The first error in the order of R209 -/

theorem exec_walk_errCode (hi : i = .encrypt ∨ i = .decrypt) (h : exec i s = .next t) :
    t.status.errCode =
      if s.status.ready = false then .notReady
      else if s.cfgDomainSize.toNat ≤ s.valueIn.toNat then .domainValue else .noError := by
  obtain ⟨hr, rfl⟩ | ⟨hr, hv, rfl⟩ | ⟨hr, hv, c, p, rfl⟩ := exec_walk_cases hi h
  · rw [if_pos hr]
    rfl
  · rw [if_neg (ne_false_of_eq_true hr), if_pos hv]
    rfl
  · rw [if_neg (ne_false_of_eq_true hr), if_neg hv.not_ge]
    rfl

theorem execFeval_errCode (h : execFeval s = .next t) :
    t.status.errCode = if s.status.ready = false then .notReady else .noError := by
  obtain ⟨hr, rfl⟩ | ⟨hr, rfl⟩ := execFeval_cases h
  · rw [if_pos hr]
    rfl
  · rw [if_neg (ne_false_of_eq_true hr)]
    rfl

/-- R113: the size of the domain is checked before the key's length, and both before the draw. -/
theorem execConfig_errCode (h : execConfig s = .next t) :
    t.status.errCode =
      if s.domainSizeIn.toNat = 0 ∨ 2 ^ 63 < s.domainSizeIn.toNat then .domainSize
      else if 64 < s.keyLen.toNat then .keyLen
      else if s.primOk = false then .primitive else .noError := by
  by_cases illegal : s.domainSizeIn.toNat = 0 ∨ 2 ^ 63 < s.domainSizeIn.toNat
  · cases (execConfig_of_illegal_size illegal).symm.trans h
    rw [if_pos illegal]
    rfl
  have low : 1 ≤ s.domainSizeIn.toNat := by omega
  have high : s.domainSizeIn.toNat ≤ 2 ^ 63 := by omega
  rw [if_neg illegal]
  by_cases long : 64 < s.keyLen.toNat
  · cases (execConfig_of_long_key low high long).symm.trans h
    rw [if_pos long]
    rfl
  have fits : s.keyLen.toNat ≤ 64 := not_lt.mp long
  rw [if_neg long]
  cases draw : s.primOk with
  | false =>
    cases (execConfig_of_failed_draw low high fits draw).symm.trans h
    rfl
  | true =>
    cases (execConfig_of_legal low high fits draw).symm.trans h
    rfl

/-- Settles O34: each command's checks run in R209's order, and the first that fails decides the code. -/
theorem firstErrorInPriorityOrderIsReported : Obligations.FirstErrorInPriorityOrderIsReported := by
  refine fun s t => ⟨fun w hpending hill h => ?_, fun i => exec_walk_errCode, execFeval_errCode,
    execConfig_errCode, fun h => ?_⟩
  · cases (engineStep_of_illegal hpending hill).symm.trans h
    rfl
  · rw [execZeroize_next h]
    rfl

/-! ### Completions -/

/-- `t` is what one of the two completions leaves (R211, R212). -/
def State.IsCompletion (t : State) : Prop := ∃ u : State, t = u.completeOk ∨ ∃ code, t = u.completeErr code

theorem State.isCompletion_completeOk (u : State) : u.completeOk.IsCompletion := ⟨u, .inl rfl⟩

theorem State.isCompletion_completeErr (u : State) (code : ErrorCode) : (u.completeErr code).IsCompletion :=
  ⟨u, .inr ⟨code, rfl⟩⟩

theorem State.IsCompletion.done (h : t.IsCompletion) : t.status.done = true := by
  obtain ⟨u, rfl | ⟨code, rfl⟩⟩ := h <;> rfl

/-- R211, R212: however a command ends, it ends in one of the two completions. -/
theorem exec_isCompletion (h : exec i s = .next t) : t.IsCompletion := by
  have data (hi : i = .encrypt ∨ i = .decrypt ∨ i = .feval) : t.IsCompletion := by
    obtain ⟨code, -, rfl⟩ | ⟨-, _, _, _, rfl⟩ := exec_data_cases hi h
    · exact State.isCompletion_completeErr _ code
    · exact State.isCompletion_completeOk _
  cases i with
  | config =>
    have answer : execConfig s = .next t := h
    obtain ⟨code, -, -, hc⟩ | ⟨-, hc⟩ | ⟨-, -, -, -, hc⟩ := execConfig_cases s <;> cases hc.symm.trans answer
    · exact State.isCompletion_completeErr _ code
    · exact State.isCompletion_completeErr _ .primitive
    · exact State.isCompletion_completeOk _
  | encrypt => exact data (.inl rfl)
  | decrypt => exact data (.inr (.inl rfl))
  | feval => exact data (.inr (.inr rfl))
  | zeroize =>
    rw [execZeroize_next h]
    exact State.isCompletion_completeOk _

/-- R211, R212: the engine's step on a pending word, legal or not, is a completion. -/
theorem engineStep_isCompletion {w : CmdWord} (hpending : s.pending = some w) (h : engineStep s = .next t) :
    t.IsCompletion := by
  obtain ⟨idle, -⟩ | ⟨w, i, -, -, hexec⟩ | ⟨w, e, -, -, rfl⟩ := engineStep_cases h
  · cases hpending.symm.trans idle
  · exact exec_isCompletion hexec
  · exact s.isCompletion_completeErr .illegalCmd

/-! ### Writes to CMD and STATUS -/

/-- R210: the low 32 bits of a write at CMD become the pending command while none is. -/
theorem State.memWrite_cmd (s : State) (data : Word) (hbusy : s.status.busy = false) (hsize : size = 4 ∨ size = 8) :
    (s.memWrite 0x000 size data).2 = s.accept (data.setWidth 32) := by
  have legal : legalAccess 0x000 size = true := by obtain rfl | rfl := hsize <;> decide
  have held : regAt 0x000 = some .cmd := regAt_offset .cmd
  rw [s.memWrite_legal data legal]
  simp [State.writeEffect, held, State.writeCmd, hbusy]

/-- Settles O49: an idle block accepts the low half of the written data. -/
theorem commandWordsAreAccepted : Obligations.CommandWordsAreAccepted := by
  intro s size data hbusy hsize
  rw [s.memWrite_cmd data hbusy hsize, BitVec.setWidth_eq_extractLsb' (by decide)]
  rfl

/-- An access that starts at a register's first byte brings the low 32 bits of the data as they are (R63). -/
theorem laneData_getLsbD_low {offset b : Nat} (data : Word) (halign : offset % 8 = 0) (hb : b < 32) :
    (laneData offset size data).getLsbD b = data.getLsbD b := by
  have notUpper : ¬ offset % 8 = 4 := by omega
  simp [laneData, laneMask_getLsbD_low halign hb, notUpper]

/-- R25: a write that reaches the low half of STATUS clears by the written bits, whatever BUSY is. -/
theorem State.memWrite_status (s : State) (data : Word) (hsize : size = 4 ∨ size = 8) :
    (s.memWrite 0x008 size data).2 = { s with status := s.status.clearedBy data } := by
  have legal : legalAccess 0x008 size = true := by obtain rfl | rfl := hsize <;> decide
  have held : regAt 0x008 = some .status := regAt_offset .status
  have bits : s.status.clearedBy (laneData 0x008 size data) = s.status.clearedBy data := by
    rw [Status.clearedBy, laneData_getLsbD_low data rfl (by decide), laneData_getLsbD_low data rfl (by decide)]
    rfl
  rw [s.memWrite_legal data legal]
  simp [State.writeEffect, held, bits]

/-! ### The interrupt -/

theorem State.irq_eq_true_iff (s : State) : s.irq = true ↔ s.ctrlIE = true ∧ s.status.done = true :=
  Bool.and_eq_true_iff

theorem State.irq_of_done (hdone : s.status.done = true) : s.irq = s.ctrlIE := by
  rw [State.irq, hdone, Bool.and_true]

theorem State.irq_of_not_done (hdone : s.status.done = false) : s.irq = false := by
  rw [State.irq, hdone, Bool.and_false]

/-- Settles O52: a completion sets DONE and keeps IE; acceptance, W1C and reset clear DONE; a CTRL write keeps it. -/
theorem irqIsALevelOfIeAndDone : Obligations.IrqIsALevelOfIeAndDone := by
  refine fun s => ⟨s.irq_eq_true_iff, fun i t h => ?_, fun w t hpending h => ?_,
    fun size data hsize => ⟨fun hbusy => ?_, fun hbit => ?_⟩, ?_, ?_, rfl⟩
  · have done := (exec_isCompletion h).done
    exact ⟨done, (State.irq_of_done done).trans (exec_ctrlIE h)⟩
  · have done := (engineStep_isCompletion hpending h).done
    exact ⟨done, (State.irq_of_done done).trans (engineStep_ctrlIE h)⟩
  · rw [s.memWrite_cmd data hbusy hsize]
    exact State.irq_of_not_done rfl
  · rw [s.memWrite_status data hsize]
    exact State.irq_of_not_done (by simp [hbit])
  · rw [s.memWrite_ctrl 1 (.inr rfl)]
    exact Bool.true_and _
  · rw [s.memWrite_ctrl 0 (.inr rfl)]
    exact Bool.false_and _

end Sys2Proof.Machine
end

section
/-! Reset, and the key buffer that a CONFIG leaves behind (spec/70_reset_and_hazards.md sections 1 and 3). -/

namespace Sys2Proof.Machine

variable {s t : State}

/-! ### The key buffer after CONFIG -/

/-- A byte past the buffer's end is 0 too, so the rule has no bound. -/
theorem keybufByte_replicate_zero (i : Nat) : keybufByte (Vector.replicate 8 0) i = 0 := by
  have word : (Vector.replicate 8 (0 : Word)).toList.getD (i / 8) 0 = 0 := by
    rw [Vector.toList_replicate, List.getD_eq_getElem?_getD, List.getElem?_getD_replicate_default_eq]
  rw [keybufByte, word]
  exact BitVec.extractLsb'_zero

theorem State.rawKey_of_keybuf_clear (h : s.keybuf = Vector.replicate 8 0) :
    s.rawKey = List.replicate (min s.keyLen.toNat 64) 0 := by
  refine List.eq_replicate_iff.mpr ⟨s.rawKey_length, fun b hb => ?_⟩
  obtain ⟨i, -, rfl⟩ := List.mem_map.mp hb
  rw [h, keybufByte_replicate_zero]

/-- R113: CONFIG clears KEYBUF and keeps KEY_LEN, however it ends. -/
theorem execConfig_keyLen_keybuf (h : execConfig s = .next t) :
    t.keyLen = s.keyLen ∧ t.keybuf = Vector.replicate 8 0 := by
  obtain ⟨code, -, -, hc⟩ | ⟨-, hc⟩ | ⟨-, -, -, -, hc⟩ := execConfig_cases s <;>
    cases hc.symm.trans h <;> exact ⟨rfl, rfl⟩

/-- Settles O25: the raw key is read from the cleared buffer, over the kept length. -/
theorem secondConfigWouldUseZeroBytes : Obligations.SecondConfigWouldUseZeroBytes := by
  intro s t h
  obtain ⟨len, clear⟩ := execConfig_keyLen_keybuf h
  exact ⟨len, len ▸ State.rawKey_of_keybuf_clear clear⟩

/-! ### Reset -/

/-- R240: reset clears what clear_secrets() does. -/
theorem State.applyReset_unconstructed (s : State) : s.applyReset.Unconstructed :=
  ⟨rfl, rfl, ⟨rfl, rfl⟩, ⟨rfl, rfl, rfl, rfl, rfl⟩, ⟨rfl, rfl, rfl⟩⟩

theorem Status.word_reset : Status.reset.word = 0 := by decide

/-- R50: of the registers only the two constants, ID and PARAMS, do not read 0 after reset. -/
theorem State.readReg_applyReset (s : State) {r : Reg} (hid : r ≠ .id) (hparams : r ≠ .params) :
    s.applyReset.readReg r = 0 := by
  cases r with
  | id => exact absurd rfl hid
  | params => exact absurd rfl hparams
  | status => exact Status.word_reset
  | ctrl => exact (by decide : ctrlWord false = 0)
  | _ => rfl

/-- Settles O39: reset takes every field but the environment's from the reset state, whatever was pending. -/
theorem resetGivesTheResetValues : Obligations.ResetGivesTheResetValues := fun s =>
  ⟨Status.word_reset, s.applyReset_ctrlIE, State.irq_of_not_done rfl, s.applyReset_domainSizeIn,
    s.applyReset_keyLen, s.applyReset_valueIn, s.applyReset_fSource, s.applyReset_fRound, s.applyReset_keybuf,
    s.applyReset_unconstructed, s.applyReset_pending, s.applyReset_scratch, fun _ => s.readReg_applyReset⟩

end Sys2Proof.Machine
end

section
/-! Corner cases of the pure functions and of the two walks: derived keys, a constant round function, and the domains of
one and of two elements (spec/40_round_function.md section 3; spec/41_feistel.md section 4). -/

namespace Sys2Proof.Machine

variable {s : State} {f : Nat → Nat → Bool} {b : Bool} {sb v : Nat}

/-! ### Derived keys -/

/-- R6: K <= B, so the digest has the K bytes that are taken of it. -/
theorem keyBytes_le_digestBytes : Config.keyBytes ≤ Config.digestBytes := hardware_legal.digest.1

theorem deriveKey_length (raw label : List Byte) :
    (deriveKey Config.hardware raw label).length = Config.keyBytes := by
  rw [deriveKey, List.length_take, mac_length]
  exact min_eq_left keyBytes_le_digestBytes

theorem deriveKey_getElem? (raw label : List Byte) {i : Nat} (hi : i < Config.keyBytes) :
    (deriveKey Config.hardware raw label)[i]? = some (Config.macByte raw label i) := by
  have inKey : i < Config.hardware.keyBytes := hi
  have inDigest : i < Config.hardware.digestBytes := hi.trans_le keyBytes_le_digestBytes
  rw [deriveKey, List.getElem?_take_of_lt inKey, Primitives.mac, List.getElem?_map, List.getElem?_range inDigest]
  rfl

/-- Settles O9: the prefix is within the digest. -/
theorem derivedKeysAreDigestPrefixes : Obligations.DerivedKeysAreDigestPrefixes :=
  ⟨rfl, rfl, fun raw label => ⟨deriveKey_length raw label, fun _ => deriveKey_getElem? raw label⟩⟩

/-! ### A constant round function -/

/-- The target moves from the top to bit 0 and is XORed with the round bit. -/
theorem fwd_const_testBit_zero (hv : v < 2 ^ (sb + 1)) (r : Nat) :
    (fwd (fun _ _ => b) sb v r).testBit 0 = (v.testBit sb ^^ b) := by
  rw [fwd_eq hv, Nat.testBit_eq_decide_div_mod_eq (x := v)]
  obtain h | h := Nat.le_one_iff_eq_zero_or_eq_one.mp (Nat.le_of_lt_succ (target_lt_two hv))
  · cases b <;> simp [h]
  · cases b <;> simp [h]

/-- The source bits move up one place. -/
theorem fwd_testBit_succ (hv : v < 2 ^ (sb + 1)) (r : Nat) {i : Nat} (hi : i < sb) :
    (fwd f sb v r).testBit (i + 1) = v.testBit i := by
  have half : fwd f sb v r / 2 = v % 2 ^ sb := by
    rw [fwd_eq hv]
    omega
  rw [Nat.testBit_succ, half, Nat.testBit_mod_two_pow, decide_eq_true hi, Bool.true_and]

section ConstantPass

variable (hv : v < 2 ^ (sb + 1)) (k : Nat)

include hv

/-- In `j` rounds a bit moves up `j` places, as long as it does not leave at the top. -/
theorem pass_const_testBit_add {i : Nat} (j : Nat) (hij : i + j ≤ sb) :
    (pass (fun _ _ => b) sb (k + j) v).testBit (i + j) = (pass (fun _ _ => b) sb k v).testBit i := by
  induction j with
  | zero => rfl
  | succ j ih =>
    have inSpace := (pass_inverseBelow (fun _ _ => b) sb (k + j)).step_lt v hv
    rw [← Nat.add_assoc, ← Nat.add_assoc, pass_succ, fwd_testBit_succ inSpace _ (by omega), ih (by omega)]

/-- In as many rounds as the value has bits, each bit goes once round and meets the round bit once. -/
theorem pass_const_testBit_width {i : Nat} (hi : i ≤ sb) :
    (pass (fun _ _ => b) sb (k + (sb + 1)) v).testBit i = ((pass (fun _ _ => b) sb k v).testBit i ^^ b) := by
  have rounds : k + (sb + 1) = k + (sb - i) + 1 + i := by omega
  have toTop := pass_const_testBit_add (b := b) hv k (i := i) (sb - i) (by omega)
  have fromBottom := pass_const_testBit_add (b := b) hv (k + (sb - i) + 1) (i := 0) i (by omega)
  have inSpace := (pass_inverseBelow (fun _ _ => b) sb (k + (sb - i))).step_lt v hv
  rw [Nat.add_sub_cancel' hi] at toTop
  rw [Nat.zero_add] at fromBottom
  rw [rounds, fromBottom, pass_succ, fwd_const_testBit_zero inSpace, toTop]

/-- Four rounds per bit flip each bit four times or never. -/
theorem pass_const_eq : pass (fun _ _ => b) sb (4 * (sb + 1)) v = v := by
  have inSpace := (pass_inverseBelow (fun _ _ => b) sb (4 * (sb + 1))).step_lt v hv
  have rounds : 4 * (sb + 1) = 0 + (sb + 1) + (sb + 1) + (sb + 1) + (sb + 1) := by omega
  refine Nat.eq_of_testBit_eq fun i => ?_
  by_cases hi : i ≤ sb
  · rw [rounds]
    simp only [pass_const_testBit_width hv _ hi, pass_zero, Bool.xor_assoc, Bool.xor_self, Bool.xor_false]
  · have above : 2 ^ (sb + 1) ≤ 2 ^ i := Nat.pow_le_pow_right two_pos (by omega)
    rw [Nat.testBit_lt_two_pow (inSpace.trans_le above), Nat.testBit_lt_two_pow (hv.trans_le above)]

end ConstantPass

/-- R150: with a constant round function the pass of a block with db domain bits is the identity. -/
theorem domainPass_const_eq {db : Nat} (hv : v < 2 ^ db) : pass (fun _ _ => b) (db - 1) (4 * db) v = v := by
  cases db with
  | zero => rfl
  | succ sb => exact pass_const_eq hv

theorem domainPassInv_const_eq {db : Nat} (hv : v < 2 ^ db) : passInv (fun _ _ => b) (db - 1) (4 * db) v = v := by
  have back := (domainPass_inverseBelow (fun _ _ => b) db).back_step v hv
  rwa [domainPass_const_eq hv] at back

theorem walk_of_fixed {step : Nat → Nat} {n : Nat} (k : Nat) (fixed : step v = v) (hv : v < n) :
    walk step n (k + 1) v = some (v, 1) := by
  rw [walk_hit k (fixed.symm ▸ hv), fixed]

/-- Settles O19: the pass and its inverse fix every value, so the first pass is the last. -/
theorem constantRoundFunctionGivesIdentity : Obligations.ConstantRoundFunctionGivesIdentity := by
  intro b n db v hv hn
  have inSpace := hv.trans_le hn
  exact ⟨walk_of_fixed _ (domainPass_const_eq inSpace) hv, walk_of_fixed _ (domainPassInv_const_eq inSpace) hv⟩

/-! ### Two elements -/

/-- With one domain bit there is no source: a forward round flips the one bit by f(0, r). -/
theorem fwd_one_bit (hv : v < 2) (r : Nat) : fwd f 0 v r = (v + (f 0 r).toNat) % 2 := by
  rw [fwd_eq hv]
  simp [Nat.mod_one]

/-- The inverse round of one bit is the same flip. -/
theorem inv_one_bit (hv : v < 2) (r : Nat) : inv f 0 v r = (v + (f 0 r).toNat) % 2 := by
  have source : v / 2 = 0 := Nat.div_eq_of_lt hv
  rw [inv_eq hv, source, Nat.mod_eq_of_lt hv, Nat.zero_add, Nat.pow_zero, Nat.one_mul]

theorem pass_one_bit (rounds : Nat) (hv : v < 2) :
    pass f 0 rounds v = (v + ∑ r ∈ Finset.range rounds, (f 0 r).toNat) % 2 := by
  induction rounds with
  | zero => simp [Nat.mod_eq_of_lt hv]
  | succ rounds ih =>
    rw [pass_succ, ih, fwd_one_bit (Nat.mod_lt _ two_pos), Finset.sum_range_succ, Nat.mod_add_mod, Nat.add_assoc]

theorem passInv_one_bit (rounds : Nat) (hv : v < 2) :
    passInv f 0 rounds v = (v + ∑ r ∈ Finset.range rounds, (f 0 r).toNat) % 2 := by
  induction rounds generalizing v with
  | zero => simp [Nat.mod_eq_of_lt hv]
  | succ rounds ih =>
    rw [passInv_succ, inv_one_bit hv, ih (Nat.mod_lt _ two_pos), Finset.sum_range_succ, Nat.mod_add_mod]
    congr 1
    omega

/-- Settles O20: 2 is a power of two, so one pass ends the walk, and its four rounds flip the one bit in turn. -/
theorem twoElementDomainFlipsByFourBits : Obligations.TwoElementDomainFlipsByFourBits := by
  refine ⟨by decide, fun f v hv => ?_⟩
  have onePass := powerOfTwoDomainsTakeOnePass f 1 v hv
  rw [pass_one_bit _ hv, passInv_one_bit _ hv] at onePass
  simpa [Finset.sum_range_succ, Nat.add_assoc] using onePass

/-! ### One element -/

/-- Settles O28: N = 1 is 2^0, so the walk is one pass of no rounds. -/
theorem oneElementDomainMapsZeroToZero : Obligations.OneElementDomainMapsZeroToZero := by
  intro i s hi hready hcfg hn hv
  have inDomain : s.valueIn.toNat < s.cfgDomainSize.toNat := by
    rw [hn, hv]
    decide
  obtain ⟨enc, dec⟩ := powerOfTwoDomainsTakeOnePass s.roundBit 0 0 (by decide)
  have encWalked : s.encWalk = some (0, 1) := by
    rw [hcfg.encWalk_eq, hn, hv]
    exact enc
  have decWalked : s.decWalk = some (0, 1) := by
    rw [hcfg.decWalk_eq, hn, hv]
    exact dec
  refine ⟨?_, ?_, ?_, ?_⟩
  · rw [hcfg.sourceBits, hn]
    decide
  · rw [hcfg.domainBits, hn]
    decide
  · rw [hcfg.rounds, hn]
    decide
  · obtain rfl | rfl := hi
    · exact execEncrypt_of_walk hready inDomain encWalked
    · exact execDecrypt_of_walk hready inDomain decWalked

end Sys2Proof.Machine
end

section
/-! What a host access leaves unchanged: the bytes of each register, STATUS as it reads and as it is cleared, dropped
writes, and the constructed object, which no host access touches (spec/10_state.md section 3; spec/20_memory.md). -/

namespace Sys2Proof.Machine

variable {s t : State} {r : Reg} {offset size : Nat}

/-- Settles O41: a register holds its bytes, and only CMD has four of them. -/
theorem registersOccupyTheirOffsets : Obligations.RegistersOccupyTheirOffsets := by
  refine ⟨fun offset => ?_, fun r offset hr => ?_⟩
  · rw [regAt_eq_some_iff]
    simp [Reg.offset, Reg.bytes]
  · have bytes : r.bytes = 8 := if_neg hr
    rw [regAt_eq_some_iff, bytes]

/-! ### STATUS -/

/-- R25: the fields at their bits, with zeros between and above them. -/
theorem Status.word_toNat (st : Status) :
    st.word.toNat = st.ready.toNat + 2 * st.busy.toNat + 4 * st.done.toNat + 8 * st.err.toNat + 16 * st.busywr.toNat +
      256 * st.errCode.byte.toNat := by
  simp only [Status.word, toNat_append_eq_add, BitVec.toNat_ofBool, BitVec.ofNat_eq_ofNat, BitVec.toNat_ofNat]
  omega

/-- Settles O43: the 8-byte read gives the whole word. -/
theorem statusReadsAsItsFields : Obligations.StatusReadsAsItsFields := by
  intro s
  have read : (s.memRead 0x008 8).data = s.status.word := s.memRead_offset_data .status
  rw [read, Status.word_toNat]

/-- A 4-byte access to the upper half of a register brings nothing to its low 32 bits (R63). -/
theorem laneData_getLsbD_upper {b : Nat} (data : Word) (hupper : offset % 8 = 4) (hb : b < 32) :
    (laneData offset 4 data).getLsbD b = false := by
  rw [laneData, BitVec.getLsbD_and, laneMask_getLsbD_upper hupper hb, Bool.and_false]

/-- W1C: where no 1 is written nothing is cleared. -/
theorem Status.clearedBy_of_zero (st : Status) {written : Word} (hdone : written.getLsbD 2 = false)
    (hbusywr : written.getLsbD 4 = false) : st.clearedBy written = st := by
  rw [Status.clearedBy, hdone, hbusywr, Bool.not_false, Bool.and_true, Bool.and_true]

theorem State.memWrite_status_upper (s : State) (data : Word) : (s.memWrite 0x00C 4 data).2 = s := by
  have held : regAt 0x00C = some .status := regAt_eq_some_iff.mpr (by decide)
  have kept : s.status.clearedBy (laneData 0x00C 4 data) = s.status :=
    s.status.clearedBy_of_zero (laneData_getLsbD_upper data rfl (by decide))
      (laneData_getLsbD_upper data rfl (by decide))
  rw [s.memWrite_legal data (by decide)]
  simp [State.writeEffect, held, kept]

/-- Settles O50: DONE and BUSYWR are in the low half of STATUS. -/
theorem statusWritesClearDoneAndBusywr : Obligations.StatusWritesClearDoneAndBusywr :=
  fun s _ data => ⟨s.memWrite_status data, s.memWrite_status_upper data⟩

/-! ### Dropped writes -/

theorem State.writeEffect_cmd (s : State) (size : Nat) (data : Word) (h : regAt offset = some .cmd) :
    s.writeEffect offset size data = s.writeCmd (data.setWidth 32) := by
  simp [State.writeEffect, h]

/-- Settles O48: both kinds of write ask BUSY first. -/
theorem writesWhileBusyAreDropped : Obligations.WritesWhileBusyAreDropped := by
  intro s r offset size data hbusy hl held hr
  rw [s.memWrite_legal data hl]
  obtain hr | rfl := hr
  · exact (s.writeEffect_operand size data held hr).trans (if_pos hbusy)
  · exact (s.writeEffect_cmd size data held).trans (if_pos hbusy)

/-! ### The object -/

/-- The object that READY, the keys, the slots, the accessors and the results make up: `s` with its other fields as
after reset. -/
def State.object (s : State) : State :=
  { State.reset with
    status := { Status.reset with ready := s.status.ready }
    skey := s.skey, rkey := s.rkey, slotS := s.slotS, slotR := s.slotR
    cfgDomainSize := s.cfgDomainSize, cfgSourceBits := s.cfgSourceBits, cfgTargetBits := s.cfgTargetBits
    cfgDomainBits := s.cfgDomainBits, cfgRounds := s.cfgRounds
    valueOut := s.valueOut, fBit := s.fBit, passCount := s.passCount }

/-- R22, R67: no write reaches a field of the object. -/
theorem State.writeEffect_object (s : State) (offset size : Nat) (data : Word) :
    (s.writeEffect offset size data).object = s.object := by
  obtain hw | ⟨-, hw⟩ | ⟨-, hw⟩ | ⟨w, hw⟩ | ⟨ie, hw⟩ | ⟨-, r, w, -, hw⟩ := s.writeEffect_cases offset size data
  · rw [hw]
  · rw [hw]; rfl
  · rw [hw]; rfl
  · rw [hw]; rfl
  · rw [hw]; rfl
  · rw [hw]; cases r <;> rfl

theorem hostAccess_object {a : Access} (h : hostAccess a s = .next t) : t.object = s.object := by
  obtain ⟨offset, size, -, -, rfl⟩ | ⟨offset, size, data, -, -, rfl⟩ := hostAccess_next h
  · rfl
  · exact s.writeEffect_object offset size data

/-- Settles O53: neither a read's reply nor a write's effect is a field of the object. -/
theorem hostAccessesNeverTouchResults : Obligations.HostAccessesNeverTouchResults := by
  intro a s t h
  have same := hostAccess_object h
  exact ⟨congrArg (·.status.ready) same, (congrArg State.valueOut same :), (congrArg State.fBit same :),
    (congrArg State.passCount same :), (congrArg State.cfgDomainSize same :), (congrArg State.cfgSourceBits same :),
    (congrArg State.cfgTargetBits same :), (congrArg State.cfgDomainBits same :), (congrArg State.cfgRounds same :),
    (congrArg State.skey same :), (congrArg State.rkey same :), (congrArg State.slotS same :),
    (congrArg State.slotR same :)⟩

end Sys2Proof.Machine
end

section
/-! How a command ends, and where the engine's step comes from: what each completion leaves, what it keeps, that no
command is refused, and which turn a step takes (spec/60_exceptions.md section 3; spec/20_memory.md section 3). -/

namespace Sys2Proof.Machine

variable {s t u : State} {i : Instr}

/-! ### The end of a command -/

/-- `t` has the fields of `s` that no command writes: BUSYWR, CTRL, the schedule and the bus reply. -/
structure State.KeepsSurroundings (s t : State) : Prop where
  busywr : t.status.busywr = s.status.busywr
  ctrl : t.ctrlIE = s.ctrlIE
  schedule : t.schedule = s.schedule
  busReply : t.busReply = s.busReply

/-- `t` is the end of a command that `s` was running: idle, with DONE, ERR set exactly with a code, and with what is not
the command's as in `s` (R184, R211, R212). -/
structure State.EndsCommand (s t : State) : Prop where
  scratch : t.scratch = Scratch.cleared
  idle : t.status.busy = false
  done : t.status.done = true
  pending : t.pending = none
  err_iff_code : t.status.err = true ↔ t.status.errCode ≠ .noError
  kept : s.KeepsSurroundings t

namespace State.KeepsSurroundings

theorem completeOk (h : s.KeepsSurroundings u) : s.EndsCommand u.completeOk :=
  ⟨rfl, rfl, rfl, rfl, iff_of_false Bool.false_ne_true fun code => code rfl,
    ⟨h.busywr, h.ctrl, h.schedule, h.busReply⟩⟩

theorem completeErr (h : s.KeepsSurroundings u) {code : ErrorCode} (hcode : code ≠ .noError) :
    s.EndsCommand (u.completeErr code) :=
  ⟨rfl, rfl, rfl, rfl, iff_of_true rfl hcode, ⟨h.busywr, h.ctrl, h.schedule, h.busReply⟩⟩

end State.KeepsSurroundings

theorem State.dataError_ne_noError {code : ErrorCode} (h : s.dataError i = some code) : code ≠ .noError := by
  rintro rfl
  unfold State.dataError at h
  split at h
  · cases h
  · split at h <;> cases h

theorem exec_data_endsCommand (hi : i = .encrypt ∨ i = .decrypt ∨ i = .feval) (h : exec i s = .next t) :
    s.EndsCommand t := by
  obtain ⟨code, hcode, rfl⟩ | ⟨-, valueOut, fBit, passCount, rfl⟩ := exec_data_cases hi h
  · exact State.KeepsSurroundings.completeErr ⟨rfl, rfl, rfl, rfl⟩ (State.dataError_ne_noError hcode)
  · exact State.KeepsSurroundings.completeOk ⟨rfl, rfl, rfl, rfl⟩

theorem execConfig_endsCommand (h : execConfig s = .next t) : s.EndsCommand t := by
  have cleared : s.KeepsSurroundings s.clearSecrets.clearKeybuf := ⟨rfl, rfl, rfl, rfl⟩
  have drawn : s.KeepsSurroundings s.clearSecrets.clearKeybuf.drawNext := ⟨rfl, rfl, rfl, rfl⟩
  obtain ⟨code, hcode, -, hc⟩ | ⟨-, hc⟩ | ⟨-, -, -, -, hc⟩ := execConfig_cases s <;> cases hc.symm.trans h
  · exact cleared.completeErr hcode
  · exact drawn.completeErr (by decide)
  · exact State.KeepsSurroundings.completeOk ⟨rfl, rfl, rfl, rfl⟩

theorem exec_endsCommand (h : exec i s = .next t) : s.EndsCommand t := by
  cases i with
  | config => exact execConfig_endsCommand h
  | encrypt => exact exec_data_endsCommand (.inl rfl) h
  | decrypt => exact exec_data_endsCommand (.inr (.inl rfl)) h
  | feval => exact exec_data_endsCommand (.inr (.inr rfl)) h
  | zeroize =>
    rw [execZeroize_next h]
    exact State.KeepsSurroundings.completeOk ⟨rfl, rfl, rfl, rfl⟩

theorem engineStep_endsCommand {w : CmdWord} (hpending : s.pending = some w) (h : engineStep s = .next t) :
    s.EndsCommand t := by
  obtain ⟨idle, -⟩ | ⟨w, i, -, -, hexec⟩ | ⟨w, e, -, -, rfl⟩ := engineStep_cases h
  · cases hpending.symm.trans idle
  · exact exec_endsCommand hexec
  · have kept : s.KeepsSurroundings s := ⟨rfl, rfl, rfl, rfl⟩
    exact kept.completeErr (by decide)

/-! ### No refusal -/

theorem State.finishWalk_ne_refused (s : State) (result : Option (Nat × Nat)) (r : Refusal) :
    s.finishWalk result ≠ .refused r := by
  cases result with
  | none => exact nofun
  | some cp => exact nofun

/-- Each command ends in a completion or, where a walk does not end, in a fault. -/
theorem exec_ne_refused (i : Instr) (s : State) (r : Refusal) : exec i s ≠ .refused r := by
  intro h
  cases i with
  | config =>
    have answer : execConfig s = .refused r := h
    obtain ⟨code, -, -, hc⟩ | ⟨-, hc⟩ | ⟨-, -, -, -, hc⟩ := execConfig_cases s <;> cases hc.symm.trans answer
  | encrypt =>
    simp only [exec, execEncrypt] at h
    split_ifs at h
    exact s.finishWalk_ne_refused _ r h
  | decrypt =>
    simp only [exec, execDecrypt] at h
    split_ifs at h
    exact s.finishWalk_ne_refused _ r h
  | feval =>
    simp only [exec, execFeval] at h
    split_ifs at h
  | zeroize => cases h

/-- Settles O35: a command and an illegal word both end in a completion of a state with the same surroundings. -/
theorem everyCompletionEndsTheCommand : Obligations.EveryCompletionEndsTheCommand := by
  unfold Obligations.EveryCompletionEndsTheCommand
  intro ended
  have of_endsCommand {s t : State} (h : s.EndsCommand t) : ended s t :=
    ⟨h.scratch, h.idle, h.done, h.pending, h.err_iff_code, h.kept.busywr, h.kept.ctrl, h.kept.schedule,
      h.kept.busReply⟩
  exact ⟨fun _ _ _ h => of_endsCommand (exec_endsCommand h),
    fun _ _ _ hpending h => of_endsCommand (engineStep_endsCommand hpending h), exec_ne_refused⟩

/-- Settles O33: ZEROIZE's answer is written out of CTRL, BUSYWR and the environment's fields alone. -/
theorem zeroizeErasesAllTraces : Obligations.ZeroizeErasesAllTraces := by
  intro s t hctrl hbusywr hschedule hreply hdraw hcount
  obtain ⟨answer, -⟩ := zeroizeClearsEverything s
  obtain ⟨answer', -⟩ := zeroizeClearsEverything t
  rw [answer, answer', hctrl, hbusywr, hschedule, hreply, hdraw, hcount]

/-! ### Turns -/

theorem engineStep_of_decode {w : CmdWord} (hpending : s.pending = some w) (hdecode : decode w = .ok i) :
    engineStep s = exec i s := by
  unfold engineStep
  rw [hpending]
  simp only [hdecode]

theorem engineStep_of_idle (hpending : s.pending = none) : engineStep s = .next s := by
  unfold engineStep
  rw [hpending]

/-- R249: when no turn is left the engine moves. -/
theorem step_of_no_turn (h : s.schedule = []) : step s = engineStep s := by
  unfold step nextTurn
  rw [h]

/-- Whether or not turns are left, `engineFirst` gives the next one to the engine and keeps the others. -/
theorem step_engineFirst (s : State) : step s.engineFirst = engineStep s := by
  unfold State.engineFirst
  split
  · next h => exact step_of_no_turn h
  · next u rest h => rw [← h]; rfl

theorem tableWord_toNat (w : CmdWord) : tableWord 32 w.toNat = w := by
  rw [tableWord, Nat.mod_eq_of_lt w.isLt, BitVec.ofNat_toNat, BitVec.setWidth_eq]

/-- Settles O38: each clause takes the head of the schedule, and the engine's turn asks what is pending. -/
theorem stepTakesTheNextTurnAndRunsTheDecodedCommand :
    Obligations.StepTakesTheNextTurnAndRunsTheDecodedCommand := by
  intro s i
  refine ⟨fun w hpending hdecode => ⟨fun hs => ?_, fun rest hs => ?_⟩, step_of_no_turn, fun rest => step_of_schedule,
    fun hpending => ⟨engineStep_of_idle hpending, fun hs => ?_, fun rest hs => ?_⟩, ?_,
    fun a rest => ⟨step_of_schedule, step_of_schedule⟩⟩
  · exact (step_of_no_turn hs).trans (engineStep_of_decode hpending hdecode)
  · exact (step_of_schedule hs).trans (engineStep_of_decode hpending hdecode)
  · exact (step_of_no_turn hs).trans (engineStep_of_idle hpending)
  · exact (step_of_schedule hs).trans (engineStep_of_idle hpending)
  · rw [State.withFetchWord, tableWord_toNat, step_engineFirst]
    exact engineStep_of_decode rfl (decode_encode i)

end Sys2Proof.Machine
end

section
/-! The invariant of the block: it is one of the engine (STATUS, PENDING, the scratch) and one of the object (constructed
or clear). Each turn keeps both, only a bus error stops a step, and so every run of legal accesses ends
(spec/10_state.md sections 3, 6 and 7; spec/42_lifecycle.md section 1; spec/20_memory.md section 4). -/

namespace Sys2Proof.Machine

variable {s t : State} {i : Instr} {u : Turn}

/-! ### The two parts of the invariant -/

/-- The engine's part: STATUS, PENDING and the scratch agree. -/
structure State.EngineInv (s : State) : Prop where
  status_legal : s.status.LegalCombination
  busy_iff_pending : s.status.busy = s.pending.isSome
  scratch_clear : s.scratch = Scratch.cleared

/-- The object's part: it is clear, or constructed (R180). -/
def State.ObjectInv (s : State) : Prop :=
  (s.status.ready = false ∧ s.Unconstructed) ∨ (s.status.ready = true ∧ s.Constructed)

/-- In both lifecycle states the keys have K bytes (R44, R106). -/
theorem State.ObjectInv.key_lengths (h : s.ObjectInv) :
    s.skey.length = Config.keyBytes ∧ s.rkey.length = Config.keyBytes := by
  obtain ⟨-, clear⟩ | ⟨-, constructed⟩ := h
  · rw [clear.skey, clear.rkey]
    exact ⟨zeros_length _, zeros_length _⟩
  · obtain ⟨raw, -, hskey, hrkey⟩ := constructed.keys
    rw [hskey, hrkey]
    exact ⟨deriveKey_length _ _, deriveKey_length _ _⟩

theorem State.inv_iff : s.Inv ↔ s.EngineInv ∧ s.ObjectInv := by
  constructor
  · intro h
    refine ⟨⟨h.status_legal, h.busy_iff_pending, h.scratch_clear⟩, ?_⟩
    cases hready : s.status.ready with
    | false => exact .inl ⟨hready, h.notReady_clear hready⟩
    | true => exact .inr ⟨hready, h.ready_constructed hready⟩
  · rintro ⟨engine, object⟩
    refine ⟨engine.status_legal, engine.busy_iff_pending, object.key_lengths, engine.scratch_clear,
      fun hready => ?_, fun hready => ?_⟩
    · exact (object.resolve_right fun ⟨ready, _⟩ => Bool.false_ne_true (hready.symm.trans ready)).2
    · exact (object.resolve_left fun ⟨ready, _⟩ => Bool.false_ne_true (ready.symm.trans hready)).2

/-! An update of other fields leaves the object's part as it is: the predicates ask of the object's fields only. -/

theorem State.cfgLatched_object_iff : s.object.CfgLatched ↔ s.CfgLatched :=
  ⟨fun ⟨size, source, target, domain, rounds⟩ => ⟨size, source, target, domain, rounds⟩,
    fun ⟨size, source, target, domain, rounds⟩ => ⟨size, source, target, domain, rounds⟩⟩

theorem State.unconstructed_object_iff : s.object.Unconstructed ↔ s.Unconstructed :=
  ⟨fun ⟨skey, rkey, slots, accessors, results⟩ => ⟨skey, rkey, slots, accessors, results⟩,
    fun ⟨skey, rkey, slots, accessors, results⟩ => ⟨skey, rkey, slots, accessors, results⟩⟩

theorem State.constructed_object_iff : s.object.Constructed ↔ s.Constructed :=
  ⟨fun ⟨keys, slots, accessors, value, passes⟩ => ⟨keys, slots, cfgLatched_object_iff.mp accessors, value, passes⟩,
    fun ⟨keys, slots, accessors, value, passes⟩ => ⟨keys, slots, cfgLatched_object_iff.mpr accessors, value, passes⟩⟩

theorem State.objectInv_object_iff : s.object.ObjectInv ↔ s.ObjectInv :=
  or_congr (and_congr_right fun _ => unconstructed_object_iff) (and_congr_right fun _ => constructed_object_iff)

theorem State.ObjectInv.of_object_eq (h : s.ObjectInv) (same : t.object = s.object) : t.ObjectInv := by
  rw [← State.objectInv_object_iff, same, State.objectInv_object_iff]
  exact h

/-! ### Reset and host accesses -/

theorem State.applyReset_inv (s : State) : s.applyReset.Inv :=
  State.inv_iff.mpr ⟨⟨⟨nofun, iff_of_false Bool.false_ne_true fun code => code rfl⟩, rfl, rfl⟩,
    .inl ⟨rfl, s.applyReset_unconstructed⟩⟩

/-- Settles O54: the reset state is the reset of itself. -/
theorem resetStateMeetsTheInvariant : Obligations.ResetStateMeetsTheInvariant := State.reset.applyReset_inv

/-- R25, R63, R67, R210: an acceptance makes BUSY and PENDING true together, and no other write changes either or sets
DONE, ERR or ERR_CODE. -/
theorem State.EngineInv.writeEffect (h : s.EngineInv) (offset size : Nat) (data : Word) :
    (s.writeEffect offset size data).EngineInv := by
  obtain ⟨⟨quiet, code⟩, busy, scratch⟩ := h
  obtain hw | ⟨-, hw⟩ | ⟨-, hw⟩ | ⟨w, hw⟩ | ⟨ie, hw⟩ | ⟨-, r, w, -, hw⟩ := s.writeEffect_cases offset size data <;>
    rw [hw]
  · exact ⟨⟨quiet, code⟩, busy, scratch⟩
  · exact ⟨⟨fun _ => ⟨rfl, rfl, rfl⟩, by simp⟩, rfl, scratch⟩
  · exact ⟨⟨quiet, code⟩, busy, scratch⟩
  · refine ⟨⟨fun hbusy => ?_, code⟩, busy, scratch⟩
    obtain ⟨done, err, noCode⟩ := quiet hbusy
    exact ⟨by simp [done], err, noCode⟩
  · exact ⟨⟨quiet, code⟩, busy, scratch⟩
  · refine ⟨?_, ?_, ?_⟩
    · rw [s.storeOperand_status]
      exact ⟨quiet, code⟩
    · rw [s.storeOperand_status, s.storeOperand_pending, busy]
    · rw [s.storeOperand_scratch, scratch]

theorem State.EngineInv.hostAccess {a : Access} (h : s.EngineInv) (ha : Machine.hostAccess a s = .next t) :
    t.EngineInv := by
  obtain ⟨offset, size, -, -, rfl⟩ | ⟨offset, size, data, -, -, rfl⟩ := hostAccess_next ha
  · exact ⟨h.status_legal, h.busy_iff_pending, h.scratch_clear⟩
  · obtain ⟨legal, busy, scratch⟩ := h.writeEffect offset size data
    exact ⟨legal, busy, scratch⟩

/-! ### Commands -/

/-- R211, R212: whatever came before, a completion leaves the engine's part. -/
theorem State.EndsCommand.engineInv (h : s.EndsCommand t) : t.EngineInv where
  status_legal := ⟨fun busy => absurd (busy.symm.trans h.idle) (by decide), h.err_iff_code⟩
  busy_iff_pending := by rw [h.idle, h.pending]; rfl
  scratch_clear := h.scratch

/-- R113, R114: CONFIG answers with a clear object or with one that it has just constructed. -/
theorem execConfig_objectInv (s : State) : ∃ t, execConfig s = .next t ∧ t.ObjectInv := by
  obtain ⟨code, -, -, hc⟩ | ⟨-, hc⟩ | ⟨hzero, hbits, -, -, hc⟩ := execConfig_cases s
  · exact ⟨_, hc, .inl ⟨rfl, s.cleared_completeErr_unconstructed code⟩⟩
  · exact ⟨_, hc, .inl ⟨rfl, s.drawNext.cleared_completeErr_unconstructed .primitive⟩⟩
  · have legal := domainSize_passes_iff.mp ⟨hzero, not_lt.mpr hbits⟩
    have rawLength : s.rawKey.length ≤ Config.rawKeyMax := s.rawKey_length.trans_le (min_le_right _ _)
    exact ⟨_, hc, .inr ⟨rfl, ⟨s.rawKey, rawLength, rfl, rfl⟩, ⟨rfl, rfl⟩, ⟨legal, rfl, rfl, rfl, rfl⟩, legal.1,
      Nat.zero_le _⟩⟩

theorem State.CfgLatched.dataCompleted (h : s.CfgLatched) (valueOut : Word) (fBit : Bool) (passCount : Word) :
    (s.dataCompleted valueOut fBit passCount).CfgLatched :=
  ⟨h.domainSize_legal, h.sourceBits, h.targetBits, h.domainBits, h.rounds⟩

/-- R34, R36: a completion with results in their ranges keeps the block constructed. -/
theorem State.Constructed.dataCompleted (h : s.Constructed) {valueOut passCount : Word} (fBit : Bool)
    (inside : valueOut.toNat < s.cfgDomainSize.toNat)
    (bound : passCount.toNat ≤ passBound s.cfgDomainSize.toNat s.cfgDomainBits.toNat) :
    (s.dataCompleted valueOut fBit passCount).Constructed :=
  ⟨h.keys, h.slots, h.accessors.dataCompleted valueOut fBit passCount, inside, bound⟩

/-- R148, R150, R151: on a constructed block the walk of a value in the domain ends, within its bound. -/
theorem exec_walk_completes (hi : i = .encrypt ∨ i = .decrypt) (hready : s.status.ready = true) (hcfg : s.CfgLatched)
    (hv : s.valueIn.toNat < s.cfgDomainSize.toNat) :
    ∃ c p, exec i s = .next (s.walkCompleted c p) ∧ c < s.cfgDomainSize.toNat ∧
      p ≤ 2 ^ (partition s.cfgDomainSize.toNat).domainBits - s.cfgDomainSize.toNat + 1 := by
  obtain rfl | rfl := hi
  · obtain ⟨c, p, walked, inside, -, bound⟩ := encWalk_ends s.roundBit hv hcfg.covers
    exact ⟨c, p, execEncrypt_of_walk hready hv (hcfg.encWalk_eq.trans walked), inside, bound⟩
  · obtain ⟨c, p, walked, inside, -, bound⟩ := decWalk_ends s.roundBit hv hcfg.covers
    exact ⟨c, p, execDecrypt_of_walk hready hv (hcfg.decWalk_eq.trans walked), inside, bound⟩

/-- The result of a walk fits its registers, so VALUE_OUT and PASS_COUNT are in their ranges too. -/
theorem exec_walk_objectInv (hi : i = .encrypt ∨ i = .decrypt) (hready : s.status.ready = true)
    (h : s.Constructed) : ∃ t, exec i s = .next t ∧ t.ObjectInv := by
  by_cases hv : s.valueIn.toNat < s.cfgDomainSize.toNat
  · obtain ⟨c, p, walked, inside, bound⟩ := exec_walk_completes hi hready h.accessors hv
    obtain ⟨valueFits, passesFit⟩ := h.accessors.result_fits inside bound
    refine ⟨_, walked, .inr ⟨hready, h.dataCompleted s.fBit (valueFits.trans_lt inside) ?_⟩⟩
    rw [passesFit, passBound, h.accessors.domainBits_toNat]
    exact bound
  · exact ⟨_, exec_of_outside hi hready (not_lt.mp hv), State.ObjectInv.of_object_eq (.inr ⟨hready, h⟩) rfl⟩

/-- Every command answers on an object that is clear or constructed, and leaves such an object. -/
theorem exec_objectInv (i : Instr) (h : s.ObjectInv) : ∃ t, exec i s = .next t ∧ t.ObjectInv := by
  have unready (hi : i = .encrypt ∨ i = .decrypt ∨ i = .feval) (hready : s.status.ready = false) :
      ∃ t, exec i s = .next t ∧ t.ObjectInv :=
    ⟨_, exec_of_notReady hi hready, h.of_object_eq rfl⟩
  cases i with
  | config => exact execConfig_objectInv s
  | encrypt =>
    obtain ⟨hready, -⟩ | ⟨hready, constructed⟩ := h
    · exact unready (.inl rfl) hready
    · exact exec_walk_objectInv (.inl rfl) hready constructed
  | decrypt =>
    obtain ⟨hready, -⟩ | ⟨hready, constructed⟩ := h
    · exact unready (.inr (.inl rfl)) hready
    · exact exec_walk_objectInv (.inr rfl) hready constructed
  | feval =>
    obtain ⟨hready, -⟩ | ⟨hready, constructed⟩ := h
    · exact unready (.inr (.inr rfl)) hready
    · exact ⟨_, execFeval_of_ready hready, .inr ⟨hready,
        constructed.dataCompleted _ constructed.valueOut_in_domain constructed.passCount_bounded⟩⟩
  | zeroize => exact ⟨_, rfl, .inl ⟨rfl, rfl, rfl, ⟨rfl, rfl⟩, ⟨rfl, rfl, rfl, rfl, rfl⟩, ⟨rfl, rfl, rfl⟩⟩⟩

/-! ### Turns and steps -/

/-- R249: on a state that meets the invariant the engine's step answers, and leaves nothing pending. -/
theorem engineStep_inv (h : s.Inv) :
    ∃ t, engineStep s = .next t ∧ t.Inv ∧ t.schedule = s.schedule ∧ t.pending = none := by
  obtain ⟨engine, object⟩ := State.inv_iff.mp h
  cases hpending : s.pending with
  | none => exact ⟨s, engineStep_of_idle hpending, h, rfl, hpending⟩
  | some w =>
    obtain ⟨t, taken, kept⟩ : ∃ t, engineStep s = .next t ∧ t.ObjectInv := by
      cases hdecode : decode w with
      | ok i =>
        rw [engineStep_of_decode hpending hdecode]
        exact exec_objectInv i object
      | error e =>
        refine ⟨s.completeErr .illegalCmd, ?_, object.of_object_eq rfl⟩
        simp only [engineStep, hpending, hdecode]
    have ended := engineStep_endsCommand hpending taken
    exact ⟨t, taken, State.inv_iff.mpr ⟨ended.engineInv, kept⟩, ended.kept.schedule, ended.pending⟩

theorem State.writeEffect_schedule (s : State) (offset size : Nat) (data : Word) :
    (s.writeEffect offset size data).schedule = s.schedule := by
  obtain hw | ⟨-, hw⟩ | ⟨-, hw⟩ | ⟨w, hw⟩ | ⟨ie, hw⟩ | ⟨-, r, w, -, hw⟩ := s.writeEffect_cases offset size data <;>
    simp [hw]

theorem hostAccess_schedule {a : Access} (h : hostAccess a s = .next t) : t.schedule = s.schedule := by
  obtain ⟨offset, size, -, -, rfl⟩ | ⟨offset, size, data, -, -, rfl⟩ := hostAccess_next h
  · rfl
  · exact s.writeEffect_schedule offset size data

theorem hostAccess_answers {a : Access} (s : State) (ha : (Turn.host a).isBusError = false) :
    ∃ t, hostAccess a s = .next t := by
  cases a with
  | read offset size => exact ⟨_, if_pos (by simpa [Turn.isBusError] using ha)⟩
  | write offset size data => exact ⟨_, if_pos (by simpa [Turn.isBusError] using ha)⟩

/-- A turn that is no bus error is taken, keeps the invariant and leaves the turns after it as they are. -/
theorem takeTurn_inv (h : s.Inv) (hu : u.isBusError = false) :
    ∃ t, takeTurn u s = .next t ∧ t.Inv ∧ t.schedule = s.schedule := by
  cases u with
  | host a =>
    obtain ⟨engine, object⟩ := State.inv_iff.mp h
    obtain ⟨t, ht⟩ := hostAccess_answers s hu
    exact ⟨t, ht, State.inv_iff.mpr ⟨engine.hostAccess ht, object.of_object_eq (hostAccess_object ht)⟩,
      hostAccess_schedule ht⟩
  | reset => exact ⟨_, rfl, s.applyReset_inv, rfl⟩
  | engine =>
    obtain ⟨t, ht, inv, schedule, -⟩ := engineStep_inv h
    exact ⟨t, ht, inv, schedule⟩

theorem takeTurn_of_busError (s : State) (hu : u.isBusError = true) :
    ∃ offset size, takeTurn u s = .fault (.busError offset size) ∧ legalAccess offset size = false := by
  cases u with
  | host a =>
    cases a with
    | read offset size =>
      have illegal : legalAccess offset size = false := by simpa [Turn.isBusError] using hu
      exact ⟨offset, size, if_neg (by simp [illegal]), illegal⟩
    | write offset size data =>
      have illegal : legalAccess offset size = false := by simpa [Turn.isBusError] using hu
      exact ⟨offset, size, if_neg (by simp [illegal]), illegal⟩
  | reset => cases hu
  | engine => cases hu

theorem State.Inv.setSchedule (h : s.Inv) (turns : List Turn) : ({ s with schedule := turns } : State).Inv := by
  obtain ⟨⟨legal, busy, scratch⟩, object⟩ := State.inv_iff.mp h
  exact State.inv_iff.mpr ⟨⟨legal, busy, scratch⟩, object.of_object_eq rfl⟩

theorem step_inv_of_turn {rest : List Turn} (h : s.Inv) (hs : s.schedule = u :: rest) (hu : u.isBusError = false) :
    ∃ t, step s = .next t ∧ t.Inv ∧ t.schedule = rest := by
  rw [step_of_schedule hs]
  exact takeTurn_inv (h.setSchedule rest) hu

/-- R62: a step answers with a state that meets the invariant again, or the bus refuses its access. -/
theorem step_inv (h : s.Inv) :
    (∃ t, step s = .next t ∧ t.Inv) ∨
      ∃ offset size, step s = .fault (.busError offset size) ∧ legalAccess offset size = false := by
  cases hs : s.schedule with
  | nil =>
    obtain ⟨t, ht, inv, -⟩ := engineStep_inv h
    exact .inl ⟨t, (step_of_no_turn hs).trans ht, inv⟩
  | cons u rest =>
    cases hu : u.isBusError with
    | false =>
      obtain ⟨t, ht, inv, -⟩ := step_inv_of_turn h hs hu
      exact .inl ⟨t, ht, inv⟩
    | true =>
      rw [step_of_schedule hs]
      exact .inr (takeTurn_of_busError _ hu)

/-- Settles O55: a step that answers keeps the invariant, and its only other outcome is a fault. -/
theorem everyStepKeepsTheInvariant : Obligations.EveryStepKeepsTheInvariant := by
  intro s t h hstep
  obtain ⟨t', ht, inv⟩ | ⟨offset, size, hfault, -⟩ := step_inv h
  · cases ht.symm.trans hstep
    exact inv
  · cases hfault.symm.trans hstep

/-- Settles O56: every walk of a constructed block ends, so the bus alone can refuse. -/
theorem onlyBusErrorsStopTheBlock : Obligations.OnlyBusErrorsStopTheBlock :=
  fun _ h => (step_inv h).imp_left fun ⟨t, ht, _⟩ => ⟨t, ht⟩

/-! ### Runs -/

theorem State.Inv.busy_of_idle (h : s.Inv) (hpending : s.pending = none) : s.status.busy = false := by
  rw [h.busy_iff_pending, hpending]
  rfl

/-- One step for each turn, and the engine's step when none is left. -/
theorem run_ends (turns : List Turn) (h : s.Inv) (hs : s.schedule = turns) (legal : s.AccessesLegal) :
    ∃ t : State, Sys2Proof.core.run (turns.length + 1) s = .next t ∧ t.runOver = true ∧ t.pending = none := by
  induction turns generalizing s with
  | nil =>
    obtain ⟨t, ht, inv, schedule, idle⟩ := engineStep_inv h
    refine ⟨t, core_run_succ 0 ((step_of_no_turn hs).trans ht), ?_, idle⟩
    simp [State.runOver, schedule, hs, inv.busy_of_idle idle]
  | cons u rest ih =>
    rw [State.AccessesLegal, hs, List.forall_mem_cons] at legal
    obtain ⟨first, later⟩ := legal
    obtain ⟨t, ht, inv, schedule⟩ := step_inv_of_turn h hs first
    obtain ⟨last, run, isOver, idle⟩ := ih inv schedule (by rwa [State.AccessesLegal, schedule])
    exact ⟨last, (core_run_succ _ ht).trans run, isOver, idle⟩

/-- Settles O57: by induction on the turns to come. -/
theorem everyRunOfLegalAccessesEnds : Obligations.EveryRunOfLegalAccessesEnds :=
  fun s h legal => run_ends s.schedule h rfl legal

end Sys2Proof.Machine
end
